-- ==== Sys2Proof/Word.lean ====
section
/-! DEFINITION. The line's two levels, the four shapes of the symbol table, and the words that select
an instruction: a symbol's unit string, a Master Select Vector, a Transition Select Vector. -/

namespace Sys2Proof

/-- A level of the line (00_scope.md R10: on a wire Low = 0 and High = 1). -/
inductive Level where
  | low
  | high
  deriving DecidableEq, Repr, Inhabited

/-- The symbols of the shape table (40_symbol_codec.md R111): what a master emits. -/
inductive Symbol where
  | start
  | bit1
  | bit0
  | ackq
  deriving DecidableEq, Repr, Inhabited

/-- What selects one row of the opcode table. The three kinds belong to three different places of the
hardware (30_encoding.md, first paragraph), so a word carries its kind. -/
inductive Word where
  /-- A symbol's unit string, one level for each time unit (30_encoding.md R80), with the unit offset of
  its sample where it has one: `BIT0` and `ACKQ` have the same string and differ by the sample. -/
  | symbol (units : List Level) (sample : Option Nat)
  /-- The 8-bit Master Select Vector (30_encoding.md R89). -/
  | msv (v : BitVec 8)
  /-- The 10-bit Transition Select Vector (30_encoding.md R88). -/
  | tsv (v : BitVec 10)
  deriving DecidableEq, Repr

end Sys2Proof
end

