-- ==== Sys2Proof/Config.lean ====
section
/-! DEFINITION. The parameters this hardware fixes, and the free values: constants without a body that
stand for a value the spec does not state. -/

namespace Sys2Proof.Config

/-- `N_A`, the width of the address field (00_scope.md R3). -/
abbrev addressN : Nat := 5

/-- `N_D`, the width of the data field (00_scope.md R4). -/
abbrev dataN : Nat := 1

/-- `REQ_W`, the width of the request ports (00_scope.md R8; log 17). -/
abbrev reqW : Nat := 32

/-- The symbol that a master index above `IDX_QD` stands for: 41_master_transmitter.md R130 defines
`sym(i)` up to `IDX_QD` only, and no run reaches more (log 9). -/
opaque symBeyond : BitVec 4 → Symbol

/-- The address accumulator after a bit is set beyond its width, from its value before and the index
(42_slave_receiver.md R178 sets bits below the width only; log 10). -/
opaque addrBitBeyond : BitVec 5 → BitVec 3 → BitVec 5

/-- The data accumulator after a bit is set beyond its width (log 10). -/
opaque dataBitBeyond : BitVec 1 → BitVec 3 → BitVec 1

end Sys2Proof.Config
end

