-- ==== Sys2Proof/Syntax.lean ====
section
/-! DEFINITION. The instructions: one constructor for each row of spec/opcode_table.json. No row has an
operand: the bits its mask leaves out select nothing (30_encoding.md R90, R91). -/

namespace Sys2Proof

/-- The rows of the opcode table. A name that ends in `A`, `D`, `I`, `L` or `H` is the row whose mnemonic
ends in `.A`, `.D`, `.I`, `.L` or `.H`. -/
inductive Instr where
  -- the symbols, 40_symbol_codec.md R112 to R116
  | start
  | bit1
  | bit0
  | ackq
  | ackr
  -- the master's step rows, 41_master_transmitter.md R133 to R141
  | mIdleWait
  | mAccept
  | mReject
  | mHalFail
  | mAckNack
  | mAckSeen
  | mHold
  | mNextSymbol
  | mFinishOk
  -- the slave's level rows, 42_slave_receiver.md R166 to R181
  | lvlIgnoreRise
  | idleStartArm
  | idleLowWaiting
  | idleStartOk
  | idleStartMalformed
  | idleStartShort
  | rxBitArmA
  | rxLowWaitingA
  | raAddrAck
  | raAddrMismatch
  | rxHighFieldFullA
  | rxBitOneA
  | rxBitOneBadA
  | rxBitZeroA
  | rxBitArmD
  | rxLowWaitingD
  | rdDataAck
  | rxHighFieldFullD
  | rxBitOneD
  | rxBitOneBadD
  | rxBitZeroD
  | doneEventL
  | doneEventH
  -- the slave's timer rows, 42_slave_receiver.md R183 to R186
  | tmrPlainI
  | tmrPlainA
  | tmrPlainD
  | tmrAddrAckEnd
  | tmrDataAckEnd
  | tmrStrayAckI
  | tmrStrayAckA
  deriving DecidableEq, Repr

end Sys2Proof
end

