-- ==== Sys2Proof/WellFormed.lean ====
section
/-! DEFINITION. The checks on words and instructions. -/

namespace Sys2Proof

/-- A Low phase of at least one unit and then a High phase, which may be empty in a slave's response
(30_encoding.md R80). -/
def lowThenHigh (units : List Level) : Bool :=
  units.head? == some .low && (units.dropWhile (· == .low)).all (· == .high)

/-- A word is well formed when a symbol's string has R80's shape and its sample falls inside it. Every
select vector is well formed: all 256 MSV and all 1024 TSV values select a row (30_encoding.md R92). -/
def Word.wf : Word → Bool
  | .symbol units none => lowThenHigh units
  | .symbol units (some u) => lowThenHigh units && decide (u < units.length)
  | .msv _ => true
  | .tsv _ => true

/-- Instructions have no operands, so each is well formed. -/
def Instr.wf (_ : Instr) : Bool := true

end Sys2Proof
end

