-- ==== Sys2Proof/Decode.lean ====
section
/-! DEFINITION. Decoding a select word to its row, encoding a row back to its words, and the numbering
of words that spec/opcode_table.json uses. -/

namespace Sys2Proof

/-- One row of the tables of 30_encoding.md R90 and R91: a vector selects it when its bits under the
mask equal the pattern. -/
structure SelectRow (n : Nat) where
  pattern : BitVec n
  mask : BitVec n
  instr : Instr
  deriving DecidableEq, Repr

/-- A vector has the bits a row asks for. -/
def SelectRow.selects (r : SelectRow n) (v : BitVec n) : Bool := v &&& r.mask == r.pattern

/-- The master step rows (30_encoding.md R91). Where the pattern strings of 41_master_transmitter.md R139
to R141 differ from match and mask, match and mask are followed (log 20). -/
def msvRows : List (SelectRow 8) :=
  [ ⟨0x00#8, 0xC0#8, .mIdleWait⟩,
    ⟨0x60#8, 0xE0#8, .mAccept⟩,
    ⟨0x40#8, 0xE0#8, .mReject⟩,
    ⟨0x90#8, 0x90#8, .mHalFail⟩,
    ⟨0x8C#8, 0x9C#8, .mAckNack⟩,
    ⟨0x88#8, 0x9C#8, .mAckSeen⟩,
    ⟨0x80#8, 0x9A#8, .mHold⟩,
    ⟨0x82#8, 0x9B#8, .mNextSymbol⟩,
    ⟨0x83#8, 0x9B#8, .mFinishOk⟩ ]

/-- The slave transition rows (30_encoding.md R90). -/
def tsvRows : List (SelectRow 10) :=
  [ ⟨0x102#10, 0x302#10, .lvlIgnoreRise⟩,
    ⟨0x000#10, 0x3B0#10, .idleStartArm⟩,
    ⟨0x080#10, 0x3B0#10, .idleLowWaiting⟩,
    ⟨0x100#10, 0x3F2#10, .idleStartOk⟩,
    ⟨0x140#10, 0x3F2#10, .idleStartMalformed⟩,
    ⟨0x180#10, 0x3B2#10, .idleStartShort⟩,
    ⟨0x010#10, 0x3B8#10, .rxBitArmA⟩,
    ⟨0x020#10, 0x3B8#10, .rxBitArmD⟩,
    ⟨0x090#10, 0x3B0#10, .rxLowWaitingA⟩,
    ⟨0x0A0#10, 0x3B0#10, .rxLowWaitingD⟩,
    ⟨0x01C#10, 0x3BC#10, .raAddrAck⟩,
    ⟨0x018#10, 0x3BC#10, .raAddrMismatch⟩,
    ⟨0x028#10, 0x3B8#10, .rdDataAck⟩,
    ⟨0x118#10, 0x33A#10, .rxHighFieldFullA⟩,
    ⟨0x128#10, 0x33A#10, .rxHighFieldFullD⟩,
    ⟨0x110#10, 0x3FA#10, .rxBitOneA⟩,
    ⟨0x120#10, 0x3FA#10, .rxBitOneD⟩,
    ⟨0x150#10, 0x3FA#10, .rxBitOneBadA⟩,
    ⟨0x160#10, 0x3FA#10, .rxBitOneBadD⟩,
    ⟨0x190#10, 0x3BA#10, .rxBitZeroA⟩,
    ⟨0x1A0#10, 0x3BA#10, .rxBitZeroD⟩,
    ⟨0x030#10, 0x330#10, .doneEventL⟩,
    ⟨0x130#10, 0x332#10, .doneEventH⟩,
    ⟨0x200#10, 0x231#10, .tmrPlainI⟩,
    ⟨0x210#10, 0x231#10, .tmrPlainA⟩,
    ⟨0x220#10, 0x231#10, .tmrPlainD⟩,
    ⟨0x221#10, 0x231#10, .tmrAddrAckEnd⟩,
    ⟨0x230#10, 0x230#10, .tmrDataAckEnd⟩,
    ⟨0x201#10, 0x231#10, .tmrStrayAckI⟩,
    ⟨0x211#10, 0x231#10, .tmrStrayAckA⟩ ]

/-- A unit string with `l` Low units and then `h` High units. -/
def unitString (l h : Nat) : List Level := List.replicate l .low ++ List.replicate h .high

/-- The symbols' unit strings, with the sample of ACKQ (30_encoding.md R80; 40_symbol_codec.md R115). -/
def symbolRows : List (List Level × Option Nat × Instr) :=
  [ (unitString 18 2, none, .start),
    (unitString 8 2, none, .bit1),
    (unitString 2 8, none, .bit0),
    (unitString 2 8, some 5, .ackq),
    (unitString 8 0, none, .ackr) ]

/-- Why a word selects nothing. -/
inductive DecodeError where
  /-- No row of the symbol table has this unit string and sample. -/
  | noSuchSymbol
  /-- No row of the master step map matches: never, by 30_encoding.md R91. -/
  | noMasterRow
  /-- No row of the slave transition map matches: never, by 30_encoding.md R90. -/
  | noSlaveRow
  deriving DecidableEq, Repr

/-- The row that a word selects, or the reason it selects none. -/
def decode : Word → Except DecodeError Instr
  | .symbol units sample =>
    match symbolRows.find? (fun r => r.1 == units && r.2.1 == sample) with
    | some r => .ok r.2.2
    | none => .error .noSuchSymbol
  | .msv v =>
    match msvRows.find? (fun r => r.selects v) with
    | some r => .ok r.instr
    | none => .error .noMasterRow
  | .tsv v =>
    match tsvRows.find? (fun r => r.selects v) with
    | some r => .ok r.instr
    | none => .error .noSlaveRow

/-- How a row is written: a symbol's string and sample, or a vector's pattern and mask. -/
inductive Encoding where
  | symbol (units : List Level) (sample : Option Nat)
  | msv (pattern mask : BitVec 8)
  | tsv (pattern mask : BitVec 10)
  deriving DecidableEq, Repr

/-- The encoding each rule gives its row: 40_symbol_codec.md R112 to R116, 41_master_transmitter.md R133
to R141, 42_slave_receiver.md R166 to R186. -/
def encoding : Instr → Encoding
  | .start => .symbol (unitString 18 2) none
  | .bit1 => .symbol (unitString 8 2) none
  | .bit0 => .symbol (unitString 2 8) none
  | .ackq => .symbol (unitString 2 8) (some 5)
  | .ackr => .symbol (unitString 8 0) none
  | .mIdleWait => .msv 0x00#8 0xC0#8
  | .mAccept => .msv 0x60#8 0xE0#8
  | .mReject => .msv 0x40#8 0xE0#8
  | .mHalFail => .msv 0x90#8 0x90#8
  | .mAckNack => .msv 0x8C#8 0x9C#8
  | .mAckSeen => .msv 0x88#8 0x9C#8
  | .mHold => .msv 0x80#8 0x9A#8
  | .mNextSymbol => .msv 0x82#8 0x9B#8
  | .mFinishOk => .msv 0x83#8 0x9B#8
  | .lvlIgnoreRise => .tsv 0x102#10 0x302#10
  | .idleStartArm => .tsv 0x000#10 0x3B0#10
  | .idleLowWaiting => .tsv 0x080#10 0x3B0#10
  | .idleStartOk => .tsv 0x100#10 0x3F2#10
  | .idleStartMalformed => .tsv 0x140#10 0x3F2#10
  | .idleStartShort => .tsv 0x180#10 0x3B2#10
  | .rxBitArmA => .tsv 0x010#10 0x3B8#10
  | .rxBitArmD => .tsv 0x020#10 0x3B8#10
  | .rxLowWaitingA => .tsv 0x090#10 0x3B0#10
  | .rxLowWaitingD => .tsv 0x0A0#10 0x3B0#10
  | .raAddrAck => .tsv 0x01C#10 0x3BC#10
  | .raAddrMismatch => .tsv 0x018#10 0x3BC#10
  | .rdDataAck => .tsv 0x028#10 0x3B8#10
  | .rxHighFieldFullA => .tsv 0x118#10 0x33A#10
  | .rxHighFieldFullD => .tsv 0x128#10 0x33A#10
  | .rxBitOneA => .tsv 0x110#10 0x3FA#10
  | .rxBitOneD => .tsv 0x120#10 0x3FA#10
  | .rxBitOneBadA => .tsv 0x150#10 0x3FA#10
  | .rxBitOneBadD => .tsv 0x160#10 0x3FA#10
  | .rxBitZeroA => .tsv 0x190#10 0x3BA#10
  | .rxBitZeroD => .tsv 0x1A0#10 0x3BA#10
  | .doneEventL => .tsv 0x030#10 0x330#10
  | .doneEventH => .tsv 0x130#10 0x332#10
  | .tmrPlainI => .tsv 0x200#10 0x231#10
  | .tmrPlainA => .tsv 0x210#10 0x231#10
  | .tmrPlainD => .tsv 0x220#10 0x231#10
  | .tmrAddrAckEnd => .tsv 0x221#10 0x231#10
  | .tmrDataAckEnd => .tsv 0x230#10 0x230#10
  | .tmrStrayAckI => .tsv 0x201#10 0x231#10
  | .tmrStrayAckA => .tsv 0x211#10 0x231#10

/-- A word of an instruction: its pattern, with the bits that its mask leaves out taken from `free`. -/
def encodeWith (i : Instr) (free : BitVec 10) : Word :=
  match encoding i with
  | .symbol units sample => .symbol units sample
  | .msv p m => .msv (p ||| (free.setWidth 8 &&& ~~~m))
  | .tsv p m => .tsv (p ||| (free &&& ~~~m))

/-- The word of an instruction whose left-out bits are 0. -/
def encode (i : Instr) : Word := encodeWith i 0

/-- The `n` lowest bits of `w` as a unit string, the leftmost unit the most significant bit: the reading
of a table row's string of bits as one number (98_reader.md). -/
def unitsOfNat : Nat → Nat → List Level
  | 0, _ => []
  | n + 1, w => (if w.testBit n then .high else .low) :: unitsOfNat n w

/-- The word that `nbits` bits of the opcode table stand for (log 7). One byte is an MSV, and all its bits
0 the unit string of ACKR, whose row fixes the most bits; two bytes hold a TSV in their ten low bits;
three bytes hold a string of 20 units. -/
def tableWord (nbits w : Nat) : Option Word :=
  if nbits ≤ 8 then
    if w % 256 = 0 then some (.symbol (unitsOfNat 8 w) none) else some (.msv (BitVec.ofNat 8 w))
  else if nbits ≤ 16 then some (.tsv (BitVec.ofNat 10 w))
  else if nbits ≤ 24 then some (.symbol (unitsOfNat 20 w) none)
  else none

/-- The instruction that the decoder reads from bits numbered as spec/opcode_table.json numbers them. -/
def decodeTableWord (nbits w : Nat) : Option Instr :=
  match tableWord nbits w with
  | none => none
  | some word =>
    match decode word with
    | .ok i => some i
    | .error _ => none

end Sys2Proof
end

