-- ==== Sys2Proof/Machine/State.lean ====
section
/-! DEFINITION. The state of a system of one Master Transmitter and any number of Slave Receivers on one
line, its reset value, and the reasons a step can stop. -/

namespace Sys2Proof.Machine

/-- Why the machine stops with a fault: never. The block has no trap that stops it and no address that
could be absent (30_encoding.md R92, 20_memory.md R60; log 12), so the type has no constructor. -/
inductive Fault where
  deriving DecidableEq, Repr

/-- Why a step has no meaning. -/
inductive Refusal where
  /-- Raised by an arm of `exec` whose instruction has no meaning yet: by none. Safe: the machine stops. -/
  | notModelled (mnemonic : String)
  /-- Raised by `step` if a fetched word selected no row. No state does so (30_encoding.md R90, R91; log
  13). Safe: the machine stops. -/
  | undecodable (e : DecodeError)
  deriving DecidableEq, Repr

/-- The slave's control point (10_state.md R27; encoding 30_encoding.md R85). -/
inductive Phase where
  | idle
  | receivingAddress
  | receivingData
  | done
  deriving DecidableEq, Repr, Inhabited

/-- The registers of a Slave Receiver (10_state.md R23). -/
structure Slave where
  /-- `own_address` -/
  ownAddress : BitVec 5
  /-- `phase` -/
  phase : Phase
  /-- `address_accum` -/
  addressAccum : BitVec 5
  /-- `data_accum` -/
  dataAccum : BitVec 1
  /-- `current_bit`, of `CB_W = 3` bits (00_scope.md R9) -/
  currentBit : BitVec 3
  /-- `awaiting_timer` -/
  awaitingTimer : Bool
  /-- `acking`, which is the port `s_drive_low` (42_slave_receiver.md R188) -/
  acking : Bool
  /-- `last_sampled_level` -/
  lastSampled : Level
  /-- `ignore_rise` -/
  ignoreRise : Bool
  /-- `tmr`, of `TMR_W` bits; the width depends on `K`, so it is a number (log 11) -/
  tmr : Nat
  /-- `line_prev` -/
  linePrev : Level
  /-- `rx_valid`, the port `s_rx_valid` -/
  rxValid : Bool
  /-- `rx_data`, the port `s_rx_data` -/
  rxData : BitVec 1
  /-- `hal_fail`, the port `s_hal_fail` -/
  halFail : Bool
  deriving DecidableEq, Repr, Inhabited

/-- The registers of the Master Transmitter (10_state.md R26). -/
structure Master where
  /-- `m_busy` -/
  busy : Bool
  /-- `m_idx`, of `MI_W = 4` bits (00_scope.md R9) -/
  idx : BitVec 4
  /-- `m_t`, of `MT_W` bits; the width depends on `K`, so it is a number (log 11) -/
  t : Nat
  /-- `m_a` -/
  a : BitVec 5
  /-- `m_d` -/
  d : BitVec 1
  /-- `m_result` (codes: 30_encoding.md R86) -/
  result : BitVec 3
  /-- `m_done` -/
  done : Bool
  deriving DecidableEq, Repr, Inhabited

/-- The input ports of one slave in one cycle (10_state.md R20, R22). -/
structure SlavePins where
  /-- `rst` of this unit (60_exceptions.md R214: a unit may be reset alone) -/
  rst : Bool
  /-- `s_drv_fault` -/
  drvFault : Bool
  /-- `cfg_own_address` -/
  cfgOwnAddress : BitVec 5
  deriving DecidableEq, Repr, Inhabited

/-- What a driver outside the block does to the line in one cycle (20_memory.md R62; 30_encoding.md R93
`LINE`; log 5). -/
inductive External where
  | released
  | drivesLow
  | forcesHigh
  deriving DecidableEq, Repr, Inhabited

/-- The input ports of one cycle (10_state.md R20 to R22). -/
structure Pins where
  /-- `rst` of the master -/
  mRst : Bool
  /-- `m_start` -/
  mStart : Bool
  /-- `m_addr` -/
  mAddr : BitVec 32
  /-- `m_data` -/
  mData : BitVec 32
  /-- `m_drv_fault` -/
  mDrvFault : Bool
  /-- the external driver of the line -/
  external : External
  /-- the ports of the slaves in order; a slave without an entry has idle ports -/
  slaves : List SlavePins
  deriving DecidableEq, Repr, Inhabited

/-- The parameter left open at synthesis (00_scope.md R6). It is held less one, so that `K >= 1`. -/
structure Params where
  kLess1 : Nat
  deriving DecidableEq, Repr, Inhabited

/-- Whose turn it is in the current clock cycle: the model's own sequencing of units that act at once
(log 1). -/
inductive Slot where
  /-- slave `j`'s drive of the line -/
  | ackDrive (j : Nat)
  /-- the master's drive of the line, by the current symbol -/
  | symbolDrive
  /-- the master's step row -/
  | masterRow
  /-- slave `j`'s countdown and its timer row -/
  | timer (j : Nat)
  /-- slave `j`'s edge detector and its level row -/
  | level (j : Nat)
  /-- the clock edge that ends the cycle -/
  | clock
  deriving DecidableEq, Repr, Inhabited

/-- The whole state. -/
structure State where
  /-- fixed at synthesis -/
  params : Params
  /-- the input ports in the current cycle -/
  pins : Pins
  /-- the input ports in the cycles to come (log 4) -/
  stim : List Pins
  /-- whose turn it is -/
  slot : Slot
  /-- the wired-AND line as the drivers of this cycle have pulled it so far (log 16) -/
  wire : Level
  /-- `ack`, the result of ACKQ in this cycle (40_symbol_codec.md R115; log 16) -/
  ackWire : Option Bool
  /-- the master's registers -/
  master : Master
  /-- the slaves' registers -/
  slaves : List Slave
  deriving DecidableEq, Repr, Inhabited

/-- A slave's idle ports (30_encoding.md R93: a fault only in the cycle that names it). -/
def SlavePins.idle : SlavePins := ⟨false, false, 0⟩

/-- Idle ports: no reset, no request, no fault, no external driver (30_encoding.md R93). -/
def Pins.idle : Pins := ⟨false, false, 0, 0, false, .released, []⟩

/-- The master's registers in reset (70_reset_and_hazards.md R230). -/
def Master.atReset : Master := ⟨false, 0, 0, 0, 0, 0, false⟩

/-- A slave's registers in reset, from `cfg_own_address` and `bus_in` of the reset cycle
(70_reset_and_hazards.md R230, R232; 42_slave_receiver.md R190). -/
def Slave.atReset (cfgOwn : BitVec 5) (line : Level) : Slave :=
  { ownAddress := cfgOwn, phase := .idle, addressAccum := 0, dataAccum := 0, currentBit := 0,
    awaitingTimer := false, acking := false, lastSampled := .high, ignoreRise := false, tmr := 0,
    linePrev := line, rxValid := false, rxData := 0, halFail := false }

/-- The first turn of a cycle of `n` slaves (log 1). -/
def Slot.first (n : Nat) : Slot := if 0 < n then .ackDrive 0 else .symbolDrive

/-- The machine right after a reset of all units: cycle 0, with `K = 1` (log 2) and one slave, whose address
is 0x0b, after a reset cycle with the line High (95_test_vectors.md VR1; log 3), and idle ports (log 4). -/
def State.reset : State :=
  { params := ⟨0⟩, pins := .idle, stim := [], slot := Slot.first 1, wire := .high, ackWire := none,
    master := .atReset, slaves := [Slave.atReset 0x0b#5 .high] }

end Sys2Proof.Machine
end

