-- ==== Sys2Proof/Machine/Flags.lean ====
section
/-! DEFINITION. The select vectors: the bits computed from the state and their packing. -/

namespace Sys2Proof.Machine

/-- A level as a bit (30_encoding.md R84). -/
def levelBit : Level → Bool
  | .low => false
  | .high => true

/-- A phase as two bits (30_encoding.md R85). -/
def phaseBits : Phase → BitVec 2
  | .idle => 0b00#2
  | .receivingAddress => 0b01#2
  | .receivingData => 0b10#2
  | .done => 0b11#2

/-- `width(phase)`: the width of the field received in a phase (42_slave_receiver.md R163). Idle and Done
receive none. -/
def fieldWidth : Phase → Option (BitVec 3)
  | .receivingAddress => some (BitVec.ofNat 3 Config.addressN)
  | .receivingData => some (BitVec.ofNat 3 Config.dataN)
  | .idle | .done => none

/-- `fc`: the field is complete (42_slave_receiver.md R163). -/
def fieldComplete (v : Slave) : Bool := fieldWidth v.phase == some v.currentBit

/-- `am`: the address matches (42_slave_receiver.md R163). -/
def addressMatch (v : Slave) : Bool := v.addressAccum == v.ownAddress

/-- The Transition Select Vector of an event at a slave (42_slave_receiver.md R163; bits 30_encoding.md
R88). `timer` is `ev`; `line` is the new level, and the level sampled at an expiry. -/
def tsv (timer : Bool) (line : Level) (v : Slave) : BitVec 10 :=
  BitVec.ofBool timer ++ BitVec.ofBool (levelBit line) ++ BitVec.ofBool v.awaitingTimer
    ++ BitVec.ofBool (levelBit v.lastSampled) ++ phaseBits v.phase ++ BitVec.ofBool (fieldComplete v)
    ++ BitVec.ofBool (addressMatch v) ++ BitVec.ofBool v.ignoreRise ++ BitVec.ofBool v.acking

/-- A request is in range: unsigned compares of the request ports (41_master_transmitter.md R131). -/
def requestValid (p : Pins) : Bool :=
  decide (p.mAddr.toNat < 2 ^ Config.addressN) && decide (p.mData.toNat < 2 ^ Config.dataN)

/-- The Master Select Vector from its eight bits (30_encoding.md R89). -/
def packMsv (busy start valid fault sp lvl eos last : Bool) : BitVec 8 :=
  BitVec.ofBool busy ++ BitVec.ofBool start ++ BitVec.ofBool valid ++ BitVec.ofBool fault
    ++ BitVec.ofBool sp ++ BitVec.ofBool lvl ++ BitVec.ofBool eos ++ BitVec.ofBool last

end Sys2Proof.Machine
end

