-- ==== Sys2Proof/Machine/Operands.lean ====
section
/-! DEFINITION. The timing constants, the shape functions of the symbols, the symbol a master index
selects, the line as a unit reads it, and the inputs of the unit whose turn it is. -/

namespace Sys2Proof.Machine

/-! ## Durations (00_scope.md R7, R9; 40_symbol_codec.md R110, R111, R117, R121) -/

/-- `K`, the clock cycles of a time unit (00_scope.md R6). -/
def Params.k (p : Params) : Nat := p.kLess1 + 1

/-- `K` of the system. -/
def State.k (s : State) : Nat := s.params.k

/-- A duration of `d` units in clock cycles (40_symbol_codec.md R110). -/
def cycles (k d : Nat) : Nat := d * k

/-- `ACKQ_SAMPLE` -/
def ackqSample : Nat := 5
/-- `T_START_DET` -/
def tStartDet : Nat := 15
/-- `T_CHECKPOINT` -/
def tCheckpoint : Nat := 5
/-- `T_ACK_HOLD` -/
def tAckHold : Nat := 8

/-- `LOWLEN` (40_symbol_codec.md R111) -/
def lowLen : Symbol → Nat
  | .start => 18
  | .bit1 => 8
  | .bit0 => 2
  | .ackq => 2

/-- `HIGHLEN` (40_symbol_codec.md R111) -/
def highLen : Symbol → Nat
  | .start => 2
  | .bit1 => 2
  | .bit0 => 8
  | .ackq => 8

/-- `TOTLEN` (40_symbol_codec.md R111) -/
def totLen (x : Symbol) : Nat := lowLen x + highLen x

/-- `BITSYM` (40_symbol_codec.md R117) -/
def bitSym (b : Bool) : Symbol := if b then .bit1 else .bit0

/-- `clog2(x)`: the smallest `w` with `2^w >= x` (00_scope.md R9). -/
def clog2 (x : Nat) : Nat := if x ≤ 1 then 0 else Nat.log2 (x - 1) + 1

/-- `TMR_W` (00_scope.md R9) -/
def tmrWidth (k : Nat) : Nat := clog2 (cycles k tStartDet + 1)

/-- `MT_W` (00_scope.md R9) -/
def mtWidth (k : Nat) : Nat := clog2 (cycles k (totLen .start))

/-! ## The master's current symbol (30_encoding.md R81, R87; 41_master_transmitter.md R130) -/

/-- `IDX_QA` -/
def idxQa : Nat := Config.addressN + 1
/-- `IDX_QD` -/
def idxQd : Nat := Config.addressN + Config.dataN + 2

/-- `sym(i)`. Above `IDX_QD` the spec has none, and it is a free value (log 9). -/
def symbolAt (m : Master) : Symbol :=
  let i := m.idx.toNat
  if i = 0 then .start
  else if i ≤ Config.addressN then bitSym (m.a.getLsbD (i - 1))
  else if i = idxQa then .ackq
  else if i ≤ Config.addressN + Config.dataN + 1 then bitSym (m.d.getLsbD (i - Config.addressN - 2))
  else if i = idxQd then .ackq
  else Config.symBeyond m.idx

/-- The emitter of a symbol drives Low in the cycle at offset `t` of it (40_symbol_codec.md R112 to R115:
`drive_low_out`). -/
def emitsLow (k : Nat) (x : Symbol) (t : Nat) : Bool := decide (t < cycles k (lowLen x))

/-- `m_drive_low` (41_master_transmitter.md R130) -/
def Master.driveLow (k : Nat) (m : Master) : Bool := m.busy && emitsLow k (symbolAt m) m.t

/-- `s_drive_low` (42_slave_receiver.md R188) -/
def Slave.driveLow (v : Slave) : Bool := v.acking

/-- `sp`: the cycle is a sample point (30_encoding.md R89) -/
def samplePoint (k : Nat) (m : Master) : Bool :=
  (m.idx.toNat == idxQa || m.idx.toNat == idxQd) && m.t == cycles k ackqSample

/-- `eos`: the cycle is the last of its symbol (30_encoding.md R89) -/
def endOfSymbol (k : Nat) (m : Master) : Bool := m.t == cycles k (totLen (symbolAt m)) - 1

/-- `last`: the symbol is the frame's last (30_encoding.md R89) -/
def lastSymbol (m : Master) : Bool := m.idx.toNat == idxQd

/-! ## The line and the inputs -/

/-- `bus_in`: the wired-AND of the drivers (20_memory.md R62), unless an external driver forces the line
High (30_encoding.md R93; 92_eei_decisions.md D30; log 5). -/
def State.busIn (s : State) : Level :=
  match s.pins.external with
  | .forcesHigh => .high
  | .released | .drivesLow => s.wire

/-- The Master Select Vector of the current cycle (41_master_transmitter.md R131). -/
def State.msv (s : State) : BitVec 8 :=
  packMsv s.master.busy s.pins.mStart (requestValid s.pins) s.pins.mDrvFault
    (samplePoint s.k s.master) (levelBit s.busIn) (endOfSymbol s.k s.master) (lastSymbol s.master)

/-- The slave whose turn it is; a turn that is no slave's names slave 0 (log 14). -/
def Slot.unit : Slot → Nat
  | .ackDrive j => j
  | .timer j => j
  | .level j => j
  | .symbolDrive | .masterRow | .clock => 0

/-- The input ports of slave `j` (a slave without an entry has idle ports, log 4). -/
def Pins.slave (p : Pins) (j : Nat) : SlavePins := (p.slaves[j]?).getD .idle

/-- The input ports of the slave whose turn it is. -/
def State.unitPins (s : State) : SlavePins := s.pins.slave s.slot.unit

end Sys2Proof.Machine
end

