-- ==== Sys2Proof/Machine/Ops.lean ====
section
/-! DEFINITION. The named operations over registers and the line: the primitives of 00_scope.md R12, the
slave's reset in place (the block's only exception entry), the master's completion, and how an operation
on one unit acts on the whole state. -/

namespace Sys2Proof.Machine

/-! ## The slave's operations -/

/-- The labels of the slave's resets (60_exceptions.md R202). No register holds one (log 19). -/
inductive Cause where
  | v1 | v2 | v3 | v4 | v5 | v6 | v7 | v8 | v9 | frameDone
  deriving DecidableEq, Repr

/-- `arm(d)` (42_slave_receiver.md R161) -/
def arm (k d : Nat) (v : Slave) : Slave := { v with tmr := cycles k d, awaitingTimer := true }

/-- `drive_low()` (42_slave_receiver.md R188) -/
def driveLow (v : Slave) : Slave := { v with acking := true }

/-- `release()` (42_slave_receiver.md R188) -/
def release (v : Slave) : Slave := { v with acking := false }

/-- `reset_to_idle(cause)`: the reset in place (42_slave_receiver.md R164), and the entry of every
violation (60_exceptions.md R209): nothing is saved, control goes to Idle, and the cause has no effect.
There is no return from it (60_exceptions.md R210). -/
def resetToIdle (_cause : Cause) (v : Slave) : Slave :=
  { v with
    phase := .idle, addressAccum := 0, dataAccum := 0, currentBit := 0, awaitingTimer := false,
    acking := false, lastSampled := .high, ignoreRise := false }

/-- `deliver(x)` (42_slave_receiver.md R189) -/
def deliver (x : BitVec 1) (v : Slave) : Slave := { v with rxData := x, rxValid := true }

/-- What every level event writes before its row (42_slave_receiver.md R165). -/
def levelEvent (v : Slave) : Slave := { v with ignoreRise := false }

/-- What every timer expiry writes before its row (42_slave_receiver.md R182). -/
def timerExpiry (line : Level) (v : Slave) : Slave :=
  { v with lastSampled := line, awaitingTimer := false }

/-- What every cycle writes in a slave before its rows: the countdown and the pulses' defaults
(42_slave_receiver.md R160). -/
def tick (v : Slave) : Slave := { v with tmr := v.tmr - 1, rxValid := false, halFail := false }

/-- A row that drives or releases: if the driver fails, `reset_to_idle(V9)` and the `hal_fail` pulse
replace every write of the row (42_slave_receiver.md R187). -/
def withDriver (drvFault : Bool) (row : Slave → Slave) (v : Slave) : Slave :=
  if drvFault then { resetToIdle .v9 v with halFail := true } else row v

/-- Bit `i` of the address accumulator set; beyond the width the spec has no bit (log 10). -/
def setAddressBit (acc : BitVec 5) (i : BitVec 3) : BitVec 5 :=
  if i.toNat < Config.addressN then acc ||| (1#5 <<< i.toNat) else Config.addrBitBeyond acc i

/-- Bit `i` of the data accumulator set; beyond the width the spec has no bit (log 10). -/
def setDataBit (acc : BitVec 1) (i : BitVec 3) : BitVec 1 :=
  if i.toNat < Config.dataN then acc ||| (1#1 <<< i.toNat) else Config.dataBitBeyond acc i

/-- The bit at `current_bit` of the active accumulator set (42_slave_receiver.md R178). -/
def setReceivedBit (v : Slave) : Slave :=
  match v.phase with
  | .receivingAddress => { v with addressAccum := setAddressBit v.addressAccum v.currentBit }
  | .idle | .receivingData | .done => { v with dataAccum := setDataBit v.dataAccum v.currentBit }

/-- `current_bit <- current_bit + 1` (42_slave_receiver.md R178, R180) -/
def countBit (v : Slave) : Slave := { v with currentBit := v.currentBit + 1 }

/-! ## The master's operations -/

/-- The master's outcomes (60_exceptions.md R201). -/
inductive ResultCode where
  | ok | addressNack | dataNack | halFailure | usageError
  deriving DecidableEq, Repr

/-- The code of an outcome (30_encoding.md R86). -/
def resultBits : ResultCode → BitVec 3
  | .ok => 0
  | .addressNack => 1
  | .dataNack => 2
  | .halFailure => 3
  | .usageError => 4

/-- The default that every master cycle writes before its row (41_master_transmitter.md R131). -/
def clearDone (m : Master) : Master := { m with done := false }

/-- `finish(code)` (41_master_transmitter.md R142) -/
def finish (code : ResultCode) (m : Master) : Master :=
  { m with busy := false, result := resultBits code, done := true }

/-- `m_t <- m_t + 1` in its `MT_W` bits (log 11) -/
def countCycle (k : Nat) (m : Master) : Master := { m with t := (m.t + 1) % 2 ^ mtWidth k }

/-! ## Operations of one unit on the state -/

/-- The slave whose turn it is changes; where there is none, nothing does (log 14). -/
def State.onUnit (f : Slave → Slave) (s : State) : State :=
  { s with slaves := s.slaves.modify s.slot.unit f }

/-- The master changes. -/
def State.onMaster (f : Master → Master) (s : State) : State := { s with master := f s.master }

/-- A driver pulls the line Low, or leaves it as the others have it (20_memory.md R62). -/
def State.pull (low : Bool) (s : State) : State :=
  { s with wire := if low then .low else s.wire }

/-- The master emits a symbol in the current cycle: the drive of 40_symbol_codec.md R112 to R115 at offset
`m_t` (log 6). -/
def State.emit (x : Symbol) (s : State) : State := s.pull (emitsLow s.k x s.master.t)

/-- The sample of ACKQ: at offset `5K` the line is read (40_symbol_codec.md R115). -/
def State.sampleAck (s : State) : State :=
  { s with ackWire := if s.master.t = cycles s.k ackqSample then some (s.busIn == .low) else none }

end Sys2Proof.Machine
end

