-- ==== Sys2Proof/Machine/Cycle.lean ====
section
/-! DEFINITION. The turns of a clock cycle: what the unit whose turn it is writes before any row, which
select word it assembles, whose turn is next, and how a given word is brought about. -/

namespace Sys2Proof.Machine

/-- The turn after a turn, in a system of `n` slaves (log 1): every driver of the line, the master's row,
each slave's timer row and then its level row (42_slave_receiver.md R160), the clock edge. -/
def Slot.next (n : Nat) : Slot → Slot
  | .ackDrive j => if j + 1 < n then .ackDrive (j + 1) else .symbolDrive
  | .symbolDrive => .masterRow
  | .masterRow => if 0 < n then .timer 0 else .clock
  | .timer j => .level j
  | .level j => if j + 1 < n then .timer (j + 1) else .clock
  | .clock => Slot.first n

/-- The steps of one clock cycle of a system of `n` slaves. -/
def turnsPerCycle (n : Nat) : Nat := 3 * n + 3

/-- The clock edge: the ports take the next cycle's values, idle ones when none are listed (log 4), and the
line of the new cycle starts released, or Low where an external driver holds it (20_memory.md R62). -/
def State.clockEdge (s : State) : State :=
  let p := s.stim.headD .idle
  { s with
    pins := p, stim := s.stim.tail,
    wire := (match p.external with | .drivesLow => .low | .released | .forcesHigh => .high),
    ackWire := none }

/-- What a turn writes before its row, or without one: a unit in reset takes its reset values
(70_reset_and_hazards.md R230), a slave's countdown and pulses advance (42_slave_receiver.md R160), and
`line_prev` follows the line in every cycle (42_slave_receiver.md R162). -/
def State.prepare (s : State) : State :=
  match s.slot with
  | .ackDrive _ | .symbolDrive => s
  | .masterRow => if s.pins.mRst then s.onMaster fun _ => Master.atReset else s
  | .timer _ =>
    s.onUnit fun v => if s.unitPins.rst then Slave.atReset s.unitPins.cfgOwnAddress s.busIn else tick v
  | .level _ => s.onUnit fun v => { v with linePrev := s.busIn }
  | .clock => s.clockEdge

/-- The symbol instruction of a symbol of the shape table. -/
def symbolInstr : Symbol → Instr
  | .start => .start
  | .bit1 => .bit1
  | .bit0 => .bit0
  | .ackq => .ackq

/-- The select word of the row that a turn runs, if it runs one: the symbol in progress, an Ack response in
progress, the MSV (41_master_transmitter.md R131), the TSV of an expiry or of an edge
(42_slave_receiver.md R160). A unit in reset runs no row (70_reset_and_hazards.md R230). -/
def State.fetch (s : State) : Option Word :=
  match s.slot with
  | .ackDrive j =>
    match s.slaves[j]? with
    | some v => if v.driveLow then some (encode .ackr) else none
    | none => none
  | .symbolDrive =>
    if s.master.busy then some (encode (symbolInstr (symbolAt s.master))) else none
  | .masterRow => if s.pins.mRst then none else some (.msv s.msv)
  | .timer j =>
    match s.slaves[j]? with
    | some v =>
      if s.unitPins.rst = false ∧ v.tmr = 1 then some (.tsv (tsv true s.busIn v)) else none
    | none => none
  | .level j =>
    match s.slaves[j]? with
    | some v =>
      if s.unitPins.rst = false ∧ s.busIn ≠ v.linePrev then some (.tsv (tsv false s.busIn v)) else none
    | none => none
  | .clock => none

/-- The turn passes on. -/
def State.advance (s : State) : State := { s with slot := s.slot.next s.slaves.length }

/-- An outcome's next state changed by `f`. -/
def mapNext (f : State → State) : Host.Outcome State Fault Refusal → Host.Outcome State Fault Refusal
  | .next s => .next (f s)
  | .fault r => .fault r
  | .refused r => .refused r

/-! ## Bringing a word about (log 8) -/

/-- The level that a bit stands for. -/
def bitLevel (b : Bool) : Level := if b then .high else .low

/-- The phase that two bits stand for. -/
def bitsPhase (hi lo : Bool) : Phase :=
  match hi, lo with
  | false, false => .idle
  | false, true => .receivingAddress
  | true, false => .receivingData
  | true, true => .done

/-- The other level. -/
def otherLevel : Level → Level
  | .low => .high
  | .high => .low

/-- A slave whose TSV is `x`: for a timer event its countdown is at 1, for a level event the level before
was the other one. In Idle and Done `fc` is 0 whatever `x` has there; every row masks it. -/
def slaveFor (x : BitVec 10) (v : Slave) : Slave :=
  let phase := bitsPhase (x.getLsbD 5) (x.getLsbD 4)
  { v with
    phase := phase
    awaitingTimer := x.getLsbD 7
    lastSampled := bitLevel (x.getLsbD 6)
    currentBit := if x.getLsbD 3 then (fieldWidth phase).getD 0 else 0
    addressAccum := if x.getLsbD 2 then v.ownAddress else v.ownAddress ^^^ 1
    ignoreRise := x.getLsbD 1
    acking := x.getLsbD 0
    tmr := if x.getLsbD 9 then 1 else v.tmr
    linePrev := if x.getLsbD 9 then v.linePrev else otherLevel (bitLevel (x.getLsbD 8)) }

/-- A master whose MSV is `x` with the ports that `portsFor` gives; `sp` and `eos` together, which no
master has, are taken as `sp`. -/
def masterFor (k : Nat) (x : BitVec 8) (m : Master) : Master :=
  let sp := x.getLsbD 3
  let eos := x.getLsbD 1
  let last := x.getLsbD 0
  { m with
    busy := x.getLsbD 7
    idx := if last then BitVec.ofNat 4 idxQd else if sp then BitVec.ofNat 4 idxQa else 0
    t :=
      if sp then cycles k ackqSample
      else if eos then cycles k (if last then totLen .ackq else totLen .start) - 1
      else 0 }

/-- The master's ports for an MSV. -/
def portsFor (x : BitVec 8) (p : Pins) : Pins :=
  { p with
    mRst := false
    mStart := x.getLsbD 6
    mAddr := if x.getLsbD 5 then 0 else BitVec.ofNat 32 (2 ^ Config.addressN)
    mData := 0
    mDrvFault := x.getLsbD 4
    external := .released }

/-- The first slave out of reset, with no external driver. -/
def Pins.firstSlaveRuns (p : Pins) : Pins :=
  { p with external := .released, slaves := p.slaves.modify 0 fun q => { q with rst := false } }

/-- At least one slave. -/
def withSlave (l : List Slave) : List Slave :=
  match l with
  | [] => [Slave.atReset 0 .high]
  | v :: r => v :: r

/-- A busy master at the first cycle of the symbol with index `i`. -/
def masterAtSymbol (i : BitVec 4) (m : Master) : Master := { m with busy := true, idx := i, t := 0 }

/-- The state whose next turn assembles a word that selects the row which `w` selects. -/
def State.arrange (w : Word) (s : State) : State :=
  match w with
  | .msv x =>
    { s with
      slot := .masterRow, pins := portsFor x s.pins, wire := bitLevel (x.getLsbD 2),
      master := masterFor s.k x s.master }
  | .tsv x =>
    { s with
      slot := if x.getLsbD 9 then .timer 0 else .level 0
      pins := s.pins.firstSlaveRuns
      wire := bitLevel (x.getLsbD 8)
      slaves := (withSlave s.slaves).modify 0 (slaveFor x) }
  | .symbol units sample =>
    match decode (.symbol units sample) with
    | .ok .ackr =>
      { s with
        slot := .ackDrive 0
        slaves := (withSlave s.slaves).modify 0 fun v => { v with acking := true } }
    | .ok .bit1 =>
      { s with slot := .symbolDrive, master := masterAtSymbol 1 { s.master with a := s.master.a ||| 1 } }
    | .ok .bit0 =>
      { s with slot := .symbolDrive, master := masterAtSymbol 1 { s.master with a := s.master.a &&& ~~~1 } }
    | .ok .ackq =>
      { s with slot := .symbolDrive, master := masterAtSymbol (BitVec.ofNat 4 idxQa) s.master }
    | _ => { s with slot := .symbolDrive, master := masterAtSymbol 0 s.master }

end Sys2Proof.Machine
end

