-- ==== Sys2Proof/Machine/LevelRows.lean ====
section
/-! DEFINITION. The meanings of the slave's level rows (42_slave_receiver.md R166 to R181). Each begins with
what every level event writes (R165). -/

namespace Sys2Proof.Machine

/-- A level event whose row then does `row` to the slave whose turn it is. -/
def levelRow (row : Slave → Slave) (s : State) : Host.Outcome State Fault Refusal :=
  .next (s.onUnit fun v => row (levelEvent v))

/-- The falling edge that starts a bit (R172). -/
def startBit (s : State) : Host.Outcome State Fault Refusal := levelRow (arm s.k tCheckpoint) s

/-- A rise after a Low sample: bit 1 (R178). -/
def receiveOne (s : State) : Host.Outcome State Fault Refusal :=
  levelRow (fun v => countBit (setReceivedBit v)) s

/-- A rise before the checkpoint: bit 0 (R180). -/
def receiveZero (s : State) : Host.Outcome State Fault Refusal := levelRow countBit s

/-- LVL_IGNORE_RISE (R166): nothing beyond R165. -/
def execLvlIgnoreRise (s : State) : Host.Outcome State Fault Refusal := levelRow id s

/-- IDLE_START_ARM (R167) -/
def execIdleStartArm (s : State) : Host.Outcome State Fault Refusal := levelRow (arm s.k tStartDet) s

/-- IDLE_LOW_WAITING (R168): V1 -/
def execIdleLowWaiting (s : State) : Host.Outcome State Fault Refusal := levelRow (resetToIdle .v1) s

/-- IDLE_START_OK (R169) -/
def execIdleStartOk (s : State) : Host.Outcome State Fault Refusal :=
  levelRow (fun v => { v with phase := .receivingAddress, currentBit := 0 }) s

/-- IDLE_START_MALFORMED (R170): V2 -/
def execIdleStartMalformed (s : State) : Host.Outcome State Fault Refusal :=
  levelRow (resetToIdle .v2) s

/-- IDLE_START_SHORT (R171): V3 -/
def execIdleStartShort (s : State) : Host.Outcome State Fault Refusal := levelRow (resetToIdle .v3) s

/-- RX_BIT_ARM.A (R172) -/
def execRxBitArmA (s : State) : Host.Outcome State Fault Refusal := startBit s

/-- RX_BIT_ARM.D (R172) -/
def execRxBitArmD (s : State) : Host.Outcome State Fault Refusal := startBit s

/-- RX_LOW_WAITING.A (R173): V4 -/
def execRxLowWaitingA (s : State) : Host.Outcome State Fault Refusal := levelRow (resetToIdle .v4) s

/-- RX_LOW_WAITING.D (R173): V4 -/
def execRxLowWaitingD (s : State) : Host.Outcome State Fault Refusal := levelRow (resetToIdle .v4) s

/-- RA_ADDR_ACK (R174) -/
def execRaAddrAck (s : State) : Host.Outcome State Fault Refusal :=
  levelRow (withDriver s.unitPins.drvFault fun v =>
    { arm s.k tAckHold (driveLow v) with currentBit := 0, phase := .receivingData }) s

/-- RA_ADDR_MISMATCH (R175): V5 -/
def execRaAddrMismatch (s : State) : Host.Outcome State Fault Refusal := levelRow (resetToIdle .v5) s

/-- RD_DATA_ACK (R176) -/
def execRdDataAck (s : State) : Host.Outcome State Fault Refusal :=
  levelRow (withDriver s.unitPins.drvFault fun v =>
    { arm s.k tAckHold (driveLow v) with phase := .done }) s

/-- RX_HIGH_FIELD_FULL.A (R177): V6 -/
def execRxHighFieldFullA (s : State) : Host.Outcome State Fault Refusal := levelRow (resetToIdle .v6) s

/-- RX_HIGH_FIELD_FULL.D (R177): V6 -/
def execRxHighFieldFullD (s : State) : Host.Outcome State Fault Refusal := levelRow (resetToIdle .v6) s

/-- RX_BIT_ONE.A (R178) -/
def execRxBitOneA (s : State) : Host.Outcome State Fault Refusal := receiveOne s

/-- RX_BIT_ONE.D (R178) -/
def execRxBitOneD (s : State) : Host.Outcome State Fault Refusal := receiveOne s

/-- RX_BIT_ONE_BAD.A (R179): V7 -/
def execRxBitOneBadA (s : State) : Host.Outcome State Fault Refusal := levelRow (resetToIdle .v7) s

/-- RX_BIT_ONE_BAD.D (R179): V7 -/
def execRxBitOneBadD (s : State) : Host.Outcome State Fault Refusal := levelRow (resetToIdle .v7) s

/-- RX_BIT_ZERO.A (R180) -/
def execRxBitZeroA (s : State) : Host.Outcome State Fault Refusal := receiveZero s

/-- RX_BIT_ZERO.D (R180) -/
def execRxBitZeroD (s : State) : Host.Outcome State Fault Refusal := receiveZero s

/-- DONE_EVENT.L (R181): V8 -/
def execDoneEventL (s : State) : Host.Outcome State Fault Refusal := levelRow (resetToIdle .v8) s

/-- DONE_EVENT.H (R181): V8 -/
def execDoneEventH (s : State) : Host.Outcome State Fault Refusal := levelRow (resetToIdle .v8) s

end Sys2Proof.Machine
end

