-- ==== Sys2Proof/Machine/MasterRows.lean ====
section
/-! DEFINITION. The meanings of the master's step rows (41_master_transmitter.md R133 to R141). Each begins
with the default `m_done <- 0` of R131. -/

namespace Sys2Proof.Machine

/-- M_IDLE_WAIT (R133) -/
def execMIdleWait (s : State) : Host.Outcome State Fault Refusal := .next (s.onMaster clearDone)

/-- M_ACCEPT (R134) -/
def execMAccept (s : State) : Host.Outcome State Fault Refusal :=
  .next (s.onMaster fun m =>
    { clearDone m with
      busy := true, idx := 0, t := 0, a := s.pins.mAddr.setWidth 5, d := s.pins.mData.setWidth 1 })

/-- M_REJECT (R135): `m_busy`, which is 0 where this row is selected, is not written. -/
def execMReject (s : State) : Host.Outcome State Fault Refusal :=
  .next (s.onMaster fun m => { m with result := resultBits .usageError, done := true })

/-- M_HAL_FAIL (R136) -/
def execMHalFail (s : State) : Host.Outcome State Fault Refusal :=
  .next (s.onMaster fun m => finish .halFailure (clearDone m))

/-- M_ACK_NACK (R137) -/
def execMAckNack (s : State) : Host.Outcome State Fault Refusal :=
  .next (s.onMaster fun m =>
    finish (if m.idx.toNat = idxQa then .addressNack else .dataNack) (clearDone m))

/-- M_ACK_SEEN (R138) -/
def execMAckSeen (s : State) : Host.Outcome State Fault Refusal :=
  .next (s.onMaster fun m => countCycle s.k (clearDone m))

/-- M_HOLD (R139) -/
def execMHold (s : State) : Host.Outcome State Fault Refusal :=
  .next (s.onMaster fun m => countCycle s.k (clearDone m))

/-- M_NEXT_SYMBOL (R140) -/
def execMNextSymbol (s : State) : Host.Outcome State Fault Refusal :=
  .next (s.onMaster fun m => { clearDone m with t := 0, idx := m.idx + 1 })

/-- M_FINISH_OK (R141) -/
def execMFinishOk (s : State) : Host.Outcome State Fault Refusal :=
  .next (s.onMaster fun m => finish .ok (clearDone m))

end Sys2Proof.Machine
end

