-- ==== Sys2Proof/Machine/Symbols.lean ====
section
/-! DEFINITION. The meanings of the five symbols (40_symbol_codec.md R112 to R116). A symbol's waveform
lasts many cycles; the instruction gives the cycle at the emitter's present offset (log 6). -/

namespace Sys2Proof.Machine

/-- START (R112): Low while the offset is below `18K`. -/
def execStart (s : State) : Host.Outcome State Fault Refusal := .next (s.emit .start)

/-- BIT1 (R113): Low while the offset is below `8K`. -/
def execBit1 (s : State) : Host.Outcome State Fault Refusal := .next (s.emit .bit1)

/-- BIT0 (R114): Low while the offset is below `2K`. -/
def execBit0 (s : State) : Host.Outcome State Fault Refusal := .next (s.emit .bit0)

/-- ACKQ (R115): Low while the offset is below `2K`, and the sample at `5K`. -/
def execAckq (s : State) : Host.Outcome State Fault Refusal := .next (s.emit .ackq).sampleAck

/-- ACKR (R116): the acknowledging slave drives Low; its `8K` cycles are those in which `acking` is 1. -/
def execAckr (s : State) : Host.Outcome State Fault Refusal := .next (s.pull true)

end Sys2Proof.Machine
end

