-- ==== Sys2Proof/Machine/TimerRows.lean ====
section
/-! DEFINITION. The meanings of the slave's timer rows (42_slave_receiver.md R183 to R186). Each begins with
what every expiry writes (R182). -/

namespace Sys2Proof.Machine

/-- A timer expiry whose row then does `row` to the slave whose turn it is. -/
def timerRow (row : Slave → Slave) (s : State) : Host.Outcome State Fault Refusal :=
  .next (s.onUnit fun v => row (timerExpiry s.busIn v))

/-- An expiry with nothing to release (R183). -/
def sampleOnly (s : State) : Host.Outcome State Fault Refusal := timerRow id s

/-- An expiry that releases a drive no row of this phase began (R186). -/
def releaseStray (s : State) : Host.Outcome State Fault Refusal :=
  timerRow (withDriver s.unitPins.drvFault release) s

/-- TMR_PLAIN.I (R183) -/
def execTmrPlainI (s : State) : Host.Outcome State Fault Refusal := sampleOnly s

/-- TMR_PLAIN.A (R183) -/
def execTmrPlainA (s : State) : Host.Outcome State Fault Refusal := sampleOnly s

/-- TMR_PLAIN.D (R183) -/
def execTmrPlainD (s : State) : Host.Outcome State Fault Refusal := sampleOnly s

/-- TMR_ADDR_ACK_END (R184) -/
def execTmrAddrAckEnd (s : State) : Host.Outcome State Fault Refusal :=
  timerRow (withDriver s.unitPins.drvFault fun v => { release v with ignoreRise := true }) s

/-- TMR_DATA_ACK_END (R185): the driver is called, and its failure read, only with `acking = 1`. -/
def execTmrDataAckEnd (s : State) : Host.Outcome State Fault Refusal :=
  timerRow (fun v =>
    withDriver (s.unitPins.drvFault && v.acking)
      (fun v => resetToIdle .frameDone (deliver v.dataAccum (release v))) v) s

/-- TMR_STRAY_ACK.I (R186) -/
def execTmrStrayAckI (s : State) : Host.Outcome State Fault Refusal := releaseStray s

/-- TMR_STRAY_ACK.A (R186) -/
def execTmrStrayAckA (s : State) : Host.Outcome State Fault Refusal := releaseStray s

end Sys2Proof.Machine
end

