-- ==== Sys2Proof/Machine/Dispatch.lean ====
section
/-! DEFINITION. The meaning of every instruction. -/

namespace Sys2Proof.Machine

def exec (i : Instr) (s : State) : Host.Outcome State Fault Refusal :=
  match i with
  | .start => Sys2Proof.Machine.execStart s
  | .bit1 => Sys2Proof.Machine.execBit1 s
  | .bit0 => Sys2Proof.Machine.execBit0 s
  | .ackq => Sys2Proof.Machine.execAckq s
  | .ackr => Sys2Proof.Machine.execAckr s
  | .mIdleWait => Sys2Proof.Machine.execMIdleWait s
  | .mAccept => Sys2Proof.Machine.execMAccept s
  | .mReject => Sys2Proof.Machine.execMReject s
  | .mHalFail => Sys2Proof.Machine.execMHalFail s
  | .mAckNack => Sys2Proof.Machine.execMAckNack s
  | .mAckSeen => Sys2Proof.Machine.execMAckSeen s
  | .mHold => Sys2Proof.Machine.execMHold s
  | .mNextSymbol => Sys2Proof.Machine.execMNextSymbol s
  | .mFinishOk => Sys2Proof.Machine.execMFinishOk s
  | .lvlIgnoreRise => Sys2Proof.Machine.execLvlIgnoreRise s
  | .idleStartArm => Sys2Proof.Machine.execIdleStartArm s
  | .idleLowWaiting => Sys2Proof.Machine.execIdleLowWaiting s
  | .idleStartOk => Sys2Proof.Machine.execIdleStartOk s
  | .idleStartMalformed => Sys2Proof.Machine.execIdleStartMalformed s
  | .idleStartShort => Sys2Proof.Machine.execIdleStartShort s
  | .rxBitArmA => Sys2Proof.Machine.execRxBitArmA s
  | .rxLowWaitingA => Sys2Proof.Machine.execRxLowWaitingA s
  | .raAddrAck => Sys2Proof.Machine.execRaAddrAck s
  | .raAddrMismatch => Sys2Proof.Machine.execRaAddrMismatch s
  | .rxHighFieldFullA => Sys2Proof.Machine.execRxHighFieldFullA s
  | .rxBitOneA => Sys2Proof.Machine.execRxBitOneA s
  | .rxBitOneBadA => Sys2Proof.Machine.execRxBitOneBadA s
  | .rxBitZeroA => Sys2Proof.Machine.execRxBitZeroA s
  | .rxBitArmD => Sys2Proof.Machine.execRxBitArmD s
  | .rxLowWaitingD => Sys2Proof.Machine.execRxLowWaitingD s
  | .rdDataAck => Sys2Proof.Machine.execRdDataAck s
  | .rxHighFieldFullD => Sys2Proof.Machine.execRxHighFieldFullD s
  | .rxBitOneD => Sys2Proof.Machine.execRxBitOneD s
  | .rxBitOneBadD => Sys2Proof.Machine.execRxBitOneBadD s
  | .rxBitZeroD => Sys2Proof.Machine.execRxBitZeroD s
  | .doneEventL => Sys2Proof.Machine.execDoneEventL s
  | .doneEventH => Sys2Proof.Machine.execDoneEventH s
  | .tmrPlainI => Sys2Proof.Machine.execTmrPlainI s
  | .tmrPlainA => Sys2Proof.Machine.execTmrPlainA s
  | .tmrPlainD => Sys2Proof.Machine.execTmrPlainD s
  | .tmrAddrAckEnd => Sys2Proof.Machine.execTmrAddrAckEnd s
  | .tmrDataAckEnd => Sys2Proof.Machine.execTmrDataAckEnd s
  | .tmrStrayAckI => Sys2Proof.Machine.execTmrStrayAckI s
  | .tmrStrayAckA => Sys2Proof.Machine.execTmrStrayAckA s

end Sys2Proof.Machine
end

