-- ==== Sys2Proof/Machine/Step.lean ====
section
/-! DEFINITION. One step: one turn of a clock cycle. -/

namespace Sys2Proof.Machine

/-- One turn (log 1): the unit whose turn it is assembles its select word; if there is one, the row it
selects runs on the state that the turn's own writes leave; then the turn passes on. -/
def step (s : State) : Host.Outcome State Fault Refusal :=
  match s.fetch with
  | none => .next s.prepare.advance
  | some w =>
    match decode w with
    | .ok i => mapNext State.advance (exec i s.prepare)
    | .error e => .refused (.undecodable e)

/-- `s` with the word of `nbits` bits `w` brought about where the next step assembles its word (log 8). -/
def State.withFetchWord (s : State) (nbits w : Nat) : State :=
  match tableWord nbits w with
  | some word => s.arrange word
  | none => s

end Sys2Proof.Machine
end

