-- ==== Sys2Proof/Machine/Reference.lean ====
section
/-! DEFINITION. The same hardware said a second way, for statements about whole cycles: one clock cycle of
each unit as a function of its registers and inputs, written from the conditions of the rules (not from
the select vectors), and one clock cycle of the system in which all units act at once. The turns of `step`
are to equal it (log 1). -/

namespace Sys2Proof.Machine.Reference

/-- A level event at a slave out of reset: the rows of 42_slave_receiver.md R165 to R181 by their
conditions. -/
def levelEvent (k : Nat) (drvFault : Bool) (line : Level) (v : Slave) : Slave :=
  let w := Machine.levelEvent v
  let fault := { resetToIdle .v9 w with halFail := true }
  match line, v.phase with
  | .low, .idle => if v.awaitingTimer then resetToIdle .v1 w else arm k tStartDet w
  | .low, .receivingAddress =>
    if v.awaitingTimer then resetToIdle .v4 w
    else if v.currentBit ≠ 5 then arm k tCheckpoint w
    else if v.addressAccum ≠ v.ownAddress then resetToIdle .v5 w
    else if drvFault then fault
    else { arm k tAckHold w with acking := true, currentBit := 0, phase := .receivingData }
  | .low, .receivingData =>
    if v.awaitingTimer then resetToIdle .v4 w
    else if v.currentBit ≠ 1 then arm k tCheckpoint w
    else if drvFault then fault
    else { arm k tAckHold w with acking := true, phase := .done }
  | .low, .done => resetToIdle .v8 w
  | .high, phase =>
    if v.ignoreRise then w
    else match phase with
      | .idle =>
        if v.awaitingTimer then resetToIdle .v3 w
        else if v.lastSampled = .high then resetToIdle .v2 w
        else { w with phase := .receivingAddress, currentBit := 0 }
      | .receivingAddress =>
        if v.currentBit = 5 then resetToIdle .v6 w
        else if v.awaitingTimer then countBit w
        else if v.lastSampled = .high then resetToIdle .v7 w
        else countBit { w with addressAccum := setAddressBit v.addressAccum v.currentBit }
      | .receivingData =>
        if v.currentBit = 1 then resetToIdle .v6 w
        else if v.awaitingTimer then countBit w
        else if v.lastSampled = .high then resetToIdle .v7 w
        else countBit { w with dataAccum := setDataBit v.dataAccum v.currentBit }
      | .done => resetToIdle .v8 w

/-- A timer expiry at a slave out of reset: the rows of 42_slave_receiver.md R182 to R186 by their
conditions. -/
def timerExpiry (drvFault : Bool) (line : Level) (v : Slave) : Slave :=
  let w := Machine.timerExpiry line v
  if v.acking && drvFault then { resetToIdle .v9 w with halFail := true }
  else match v.phase with
    | .done => resetToIdle .frameDone { w with rxData := v.dataAccum, rxValid := true }
    | .receivingData =>
      if v.acking then { w with acking := false, ignoreRise := true } else w
    | .idle | .receivingAddress => { w with acking := false }

/-- One clock cycle of a slave (42_slave_receiver.md R160; in reset 70_reset_and_hazards.md R230). -/
def slaveCycle (k : Nat) (p : SlavePins) (line : Level) (v : Slave) : Slave :=
  if p.rst then Slave.atReset p.cfgOwnAddress line
  else
    let v1 := { v with
      tmr := v.tmr - 1, linePrev := line, rxValid := false, halFail := false }
    let v2 := if v.tmr = 1 then timerExpiry p.drvFault line v1 else v1
    if line ≠ v.linePrev then levelEvent k p.drvFault line v2 else v2

/-- One clock cycle of the master: the steps of 41_master_transmitter.md R133 to R141 in the order of
precedence of 60_exceptions.md R208. -/
def masterCycle (k : Nat) (p : Pins) (line : Level) (m : Master) : Master :=
  if p.mRst then Master.atReset
  else if m.busy then
    if p.mDrvFault then { m with busy := false, result := 3, done := true }
    else if (m.idx = 6 ∨ m.idx = 8) ∧ m.t = 5 * k then
      match line with
      | .high => { m with busy := false, result := if m.idx = 6 then 1 else 2, done := true }
      | .low => countCycle k { m with done := false }
    else if m.t = totLen (symbolAt m) * k - 1 then
      if m.idx = 8 then { m with busy := false, result := 0, done := true }
      else { m with idx := m.idx + 1, t := 0, done := false }
    else countCycle k { m with done := false }
  else if p.mStart then
    if p.mAddr.toNat < 32 ∧ p.mData.toNat < 2 then
      { m with busy := true, idx := 0, t := 0, a := p.mAddr.setWidth 5, d := p.mData.setWidth 1, done := false }
    else { m with result := 4, done := true }
  else { m with done := false }

/-- The line before any unit of the block drives it: an external driver alone (20_memory.md R62). -/
def lineAlone (p : Pins) : Level :=
  match p.external with
  | .drivesLow => .low
  | .released | .forcesHigh => .high

/-- `bus_in` of a cycle from the registers and ports at its start: forced High, or Low when any driver
drives Low (20_memory.md R62). -/
def line (s : State) : Level :=
  if s.pins.external = .forcesHigh then .high
  else if s.pins.external = .drivesLow ∨ s.master.driveLow s.k = true ∨ s.slaves.any Slave.driveLow = true
    then .low else .high

/-- One clock cycle of the system: every unit acts at once on the line of the cycle (00_scope.md R11,
70_reset_and_hazards.md R242); then the ports take the next cycle's values. -/
def cycle (s : State) : State :=
  let l := line s
  let p := s.stim.headD .idle
  { s with
    master := masterCycle s.k s.pins l s.master
    slaves := s.slaves.mapIdx fun j v => slaveCycle s.k (s.pins.slave j) l v
    pins := p
    stim := s.stim.tail
    wire := lineAlone p
    ackWire := none
    slot := Slot.first s.slaves.length }

/-- `n` clock cycles of the system. -/
def cycleTimes : Nat → State → State
  | 0, s => s
  | n + 1, s => cycleTimes n (cycle s)

/-- A slave that listens with idle ports to one level of the line after another, one a cycle. -/
def listen (k : Nat) (levels : List Level) (v : Slave) : Slave :=
  levels.foldl (fun v l => slaveCycle k .idle l v) v

/-- A master that runs `n` cycles with the ports and the line that each cycle has. -/
def transmit (k : Nat) (ports : Nat → Pins) (levels : Nat → Level) (m : Master) : Nat → Master
  | 0 => m
  | n + 1 => masterCycle k (ports n) (levels n) (transmit k ports levels m n)

end Sys2Proof.Machine.Reference
end

