-- ==== Sys2Proof/Safety.lean ====
section
/-! DEFINITION. What a sound state is, in the terms the statements use. -/

namespace Sys2Proof.Machine

/-- A cycle begins: the first turn is next, and the line is as an external driver alone leaves it. -/
def State.atCycleStart (s : State) : Prop :=
  s.slot = Slot.first s.slaves.length ∧ s.wire = Reference.lineAlone s.pins ∧ s.ackWire = none

/-- No external driver forces the line High, now or later: the line is the wired-AND of 20_memory.md R62. -/
def State.wiredAnd (s : State) : Prop :=
  s.pins.external ≠ .forcesHigh ∧ ∀ p ∈ s.stim, p.external ≠ .forcesHigh

/-- The invariants of one slave, 10_state.md R34 (a) to (f). -/
structure Slave.Sound (v : Slave) : Prop where
  /-- (a) -/
  idle_clear : v.phase = .idle →
    v.addressAccum = 0 ∧ v.dataAccum = 0 ∧ v.currentBit = 0 ∧ v.acking = false ∧ v.ignoreRise = false
  /-- (b) in ReceivingAddress -/
  address_bound : v.phase = .receivingAddress → v.currentBit.toNat ≤ 5
  /-- (b) in ReceivingData -/
  data_bound : v.phase = .receivingData → v.currentBit.toNat ≤ 1
  /-- (c) -/
  acking_where : v.acking = true →
    (v.phase = .receivingData ∧ v.currentBit = 0 ∧ v.awaitingTimer = true ∧ v.addressAccum = v.ownAddress) ∨
      (v.phase = .done ∧ v.currentBit = 1 ∧ v.awaitingTimer = true)
  /-- (d) -/
  ignoring_where : v.ignoreRise = true → v.phase = .receivingData ∧ v.currentBit = 0 ∧ v.acking = false
  /-- (e) -/
  awaiting_runs : v.awaitingTimer = true → 0 < v.tmr
  /-- (f) -/
  done_acks : v.phase = .done → v.acking = true

/-- Slave `j` has had its turn to drive the line in this cycle. -/
def Slot.drivenBy (j : Nat) : Slot → Bool
  | .ackDrive i => decide (j < i)
  | .symbolDrive | .masterRow | .timer _ | .level _ | .clock => true

/-- Every slave is sound, and a slave that drives the line sees no edge: the line was Low a cycle ago, and
is Low in this cycle once the slave has driven it. -/
def State.SlavesSound (s : State) : Prop :=
  ∀ j v, s.slaves[j]? = some v →
    v.Sound ∧ (v.acking = true → v.linePrev = .low ∧ (s.slot.drivenBy j = true → s.wire = .low))

/-- The master's control point is one a frame has (10_state.md R26, R28), and its result one of the five
codes (30_encoding.md R86). -/
structure Master.Sound (k : Nat) (m : Master) : Prop where
  idx_bound : m.idx.toNat ≤ 8
  t_bound : m.t < (if m.idx = 0 then 20 * k else 10 * k)
  result_code : m.result.toNat ≤ 4

/-- The counters are within 10_state.md R25's bound and 00_scope.md R9's widths. -/
def State.CountersBounded (s : State) : Prop :=
  s.master.t < 2 ^ mtWidth s.k ∧ ∀ v ∈ s.slaves, v.tmr ≤ 15 * s.k

/-- The slave's registers after a reset in place: those of reset, less the ones that 42_slave_receiver.md
R164 does not write. -/
def Slave.resetInPlace (v : Slave) : Slave :=
  { Slave.atReset v.ownAddress v.linePrev with
    tmr := v.tmr, rxValid := v.rxValid, rxData := v.rxData, halFail := v.halFail }

/-- `n` steps of the machine. -/
def State.run (n : Nat) (s : State) : Host.Outcome State Fault Refusal := Host.Core.run Sys2Proof.core n s

/-- A system just after a reset of all its units in a cycle with the line High, at the start of a cycle with
the given ports: any `K`, any slaves, any inputs. -/
def State.fresh (params : Params) (owns : List (BitVec 5)) (pins : Pins) (stim : List Pins) : State :=
  { State.reset with
    params := params, pins := pins, stim := stim, slot := Slot.first owns.length,
    wire := Reference.lineAlone pins, slaves := owns.map fun a => Slave.atReset a .high }

/-- The cycles of a frame that a busy master has behind it (41_master_transmitter.md R143). -/
def Master.elapsed (k : Nat) (m : Master) : Nat :=
  if m.idx = 0 then m.t else 20 * k + 10 * k * (m.idx.toNat - 1) + m.t

end Sys2Proof.Machine
end

