-- ==== Sys2Proof/Certificates/Slice0/Obligations.lean ====
section
/-! DEFINITION. The statements for the provers. -/

open Sys2Proof Sys2Proof.Machine

/-! ## Words and select vectors -/

/-- Every word of an instruction, whatever the bits its mask leaves out, decodes to it, and every word that
decodes is such a word of its instruction. -/
def Obligations.DecodeAgreesWithEncode : Prop :=
  (∀ (i : Instr) (free : BitVec 10), i.wf = true → decode (encodeWith i free) = .ok i) ∧
    ∀ (w : Word) (i : Instr), decode w = .ok i → ∃ free : BitVec 10, w = encodeWith i free

/-- R90's sentence that every TSV matches exactly one row, which the spec marks as its own inference. -/
def Obligations.EveryTsvSelectsExactlyOneRow : Prop :=
  ∀ v : BitVec 10, ∃ r ∈ tsvRows, r.selects v = true ∧ decode (.tsv v) = .ok r.instr ∧
    ∀ q ∈ tsvRows, q.selects v = true → q = r

/-- R91's sentence that the table is complete and its rows exclude each other, which the spec marks as its
own inference. -/
def Obligations.EveryMsvSelectsExactlyOneRow : Prop :=
  ∀ v : BitVec 8, ∃ r ∈ msvRows, r.selects v = true ∧ decode (.msv v) = .ok r.instr ∧
    ∀ q ∈ msvRows, q.selects v = true → q = r

/-- Words of 95_test_vectors.md 2.2 and of R80, written out, one or more of each family. -/
def Obligations.WrittenWordsDecode : Prop :=
  decode (.symbol (List.replicate 18 .low ++ [.high, .high]) none) = .ok .start ∧
    decode (.symbol [.low, .low, .high, .high, .high, .high, .high, .high, .high, .high] none) = .ok .bit0 ∧
    decode (.symbol [.low, .low, .high, .high, .high, .high, .high, .high, .high, .high] (some 5)) = .ok .ackq ∧
    decode (.msv 0x64) = .ok .mAccept ∧ decode (.msv 0xB0) = .ok .mHalFail ∧
    decode (.tsv 0x126) = .ok .lvlIgnoreRise ∧ decode (.tsv 0x05C) = .ok .raAddrAck ∧
    decode (.tsv 0x1C0) = .ok .idleStartShort ∧ decode (.tsv 0x2B5) = .ok .tmrDataAckEnd

/-- A word of the opcode table's numbering that is brought about (log 8) is what the next turn fetches, up to
the bits its row masks. -/
def Obligations.TableWordIsFetchedNext : Prop :=
  ∀ (s : State) (nbits w : Nat) (i : Instr), decodeTableWord nbits w = some i →
    ∃ word, (s.withFetchWord nbits w).fetch = some word ∧ decode word = .ok i

/-- R163: the bits of a TSV, `fc`, `am`, and which rows read `am`. -/
def Obligations.TsvBitsComeFromTheState : Prop :=
  (∀ (ev : Bool) (lvl : Level) (v : Slave),
    let x := tsv ev lvl v
    x.getLsbD 9 = ev ∧ x.getLsbD 8 = decide (lvl = .high) ∧ x.getLsbD 7 = v.awaitingTimer ∧
      x.getLsbD 6 = decide (v.lastSampled = .high) ∧
      x.extractLsb' 4 2 = (match v.phase with
        | .idle => 0b00 | .receivingAddress => 0b01 | .receivingData => 0b10 | .done => 0b11) ∧
      x.getLsbD 3 = decide ((v.phase = .receivingAddress ∧ v.currentBit = 5) ∨
        (v.phase = .receivingData ∧ v.currentBit = 1)) ∧
      x.getLsbD 2 = decide (v.addressAccum = v.ownAddress) ∧
      x.getLsbD 1 = v.ignoreRise ∧ x.getLsbD 0 = v.acking) ∧
    (∀ r ∈ tsvRows, r.mask.getLsbD 2 = true → r.instr = .raAddrAck ∨ r.instr = .raAddrMismatch) ∧
    ∀ v : Slave, v.Sound →
      (v.phase = .receivingAddress → (fieldComplete v = false ↔ v.currentBit.toNat < 5)) ∧
        (v.phase = .receivingData → (fieldComplete v = false ↔ v.currentBit.toNat < 1))

/-- R89: each master cycle assembles this MSV and exactly one row matches it, as every value; `sp` and `eos`
are never both 1. -/
def Obligations.MsvBitsComeFromTheState : Prop :=
  (∀ v : BitVec 8, ∃ r ∈ msvRows, r.selects v = true ∧ decode (.msv v) = .ok r.instr ∧
    ∀ q ∈ msvRows, q.selects v = true → q = r) ∧
  ∀ s : State,
    let x := s.msv
    let m := s.master
    (s.slot = .masterRow → s.pins.mRst = false → s.fetch = some (.msv x)) ∧
      x.getLsbD 7 = m.busy ∧ x.getLsbD 6 = s.pins.mStart ∧
      x.getLsbD 5 = decide (s.pins.mAddr.toNat < 2 ^ 5 ∧ s.pins.mData.toNat < 2 ^ 1) ∧
      x.getLsbD 4 = s.pins.mDrvFault ∧
      x.getLsbD 3 = decide ((m.idx = 6 ∨ m.idx = 8) ∧ m.t = 5 * s.k) ∧
      x.getLsbD 2 = decide (s.busIn = .high) ∧
      x.getLsbD 1 = decide (m.t = totLen (symbolAt m) * s.k - 1) ∧
      x.getLsbD 0 = decide (m.idx = 8) ∧
      ¬ (x.getLsbD 3 = true ∧ x.getLsbD 1 = true)

/-! ## One step -/

/-- A step runs the instruction that its word decodes to, on the state that the turn's own writes leave, and
passes the turn on. -/
def Obligations.StepRunsTheFetchedInstruction : Prop :=
  ∀ (s : State) (w : Word) (i : Instr), s.fetch = some w → decode w = .ok i → i.wf = true →
    ∃ u, exec i s.prepare = .next u ∧
      step s = .next { u with slot := u.slot.next u.slaves.length }

/-- What a turn writes besides its row, turn by turn (R160's common part, R162, R230), and what a turn
without a row does. -/
def Obligations.TurnsWriteTheirOwnRegisters : Prop :=
  ∀ s : State,
    (s.fetch = none → step s = .next s.prepare.advance) ∧
      (∀ j, s.slot = .ackDrive j → s.prepare = s) ∧
      (s.slot = .symbolDrive → s.prepare = s) ∧
      (s.slot = .masterRow →
        s.prepare = { s with master := if s.pins.mRst then Master.atReset else s.master }) ∧
      (∀ j, s.slot = .timer j →
        s.prepare = { s with
          slaves := s.slaves.modify j fun v =>
            if (s.pins.slave j).rst then Slave.atReset (s.pins.slave j).cfgOwnAddress s.busIn
            else { v with tmr := v.tmr - 1, rxValid := false, halFail := false } }) ∧
      (∀ j, s.slot = .level j →
        s.prepare = { s with slaves := s.slaves.modify j fun v => { v with linePrev := s.busIn } })

/-- No step faults or refuses. It rests on R90 and R91, whose completeness the spec marks as its own inference. -/
def Obligations.StepAlwaysAnswersNext : Prop := ∀ s : State, ∃ t, step s = .next t

/-- The turns of one clock cycle, one after another, are one cycle in which every unit acts at once on the
line of the cycle. The turns are the model's order (log 1); the ports of the next cycle in `Reference.cycle` are
the model's convention (log 4), and a line forced High in `Reference.line` is the model's reading (log 5). -/
def Obligations.TurnsOfACycleActAtOnce : Prop :=
  ∀ s : State, s.atCycleStart → s.run (turnsPerCycle s.slaves.length) = .next (Reference.cycle s)

/-- An edge at slave `j` runs what the rules R165 to R181 say under the conditions they name. -/
def Obligations.LevelTurnFollowsTheTransitionTable : Prop :=
  ∀ (s : State) (j : Nat) (v : Slave), s.slot = .level j → s.slaves[j]? = some v →
    (s.pins.slave j).rst = false → s.busIn ≠ v.linePrev →
    step s = .next { s with
      slot := (Slot.level j).next s.slaves.length
      slaves := s.slaves.set j
        (Reference.levelEvent s.k (s.pins.slave j).drvFault s.busIn { v with linePrev := s.busIn }) }

/-- A level event happens exactly when the line differs from `line_prev`, and `line_prev` takes the line in
every cycle, in reset too (R162, R232). -/
def Obligations.EdgeExactlyWhenTheLineChanges : Prop :=
  ∀ (s : State) (j : Nat) (v : Slave), s.slot = .level j → s.slaves[j]? = some v →
    (s.fetch = if (s.pins.slave j).rst = false ∧ s.busIn ≠ v.linePrev
      then some (.tsv (tsv false s.busIn v)) else none) ∧
      ∃ t w, step s = .next t ∧ t.slaves[j]? = some w ∧ w.linePrev = s.busIn ∧
        ((s.pins.slave j).rst = true ∨ s.busIn = v.linePrev → w = { v with linePrev := s.busIn })

/-- A cycle's countdown at slave `j`, and at an expiry what the rules R182 to R186 say under the conditions
they name. -/
def Obligations.TimerTurnFollowsTheExpiryRows : Prop :=
  ∀ (s : State) (j : Nat) (v : Slave), s.slot = .timer j → s.slaves[j]? = some v →
    (s.pins.slave j).rst = false →
    step s = .next { s with
      slot := .level j
      slaves := s.slaves.set j
        (let w := { v with tmr := v.tmr - 1, rxValid := false, halFail := false }
         if v.tmr = 1 then Reference.timerExpiry (s.pins.slave j).drvFault s.busIn w else w) }

/-- The master's turn runs what R133 to R141 say, in the precedence of R208. -/
def Obligations.MasterTurnFollowsTheStepRows : Prop :=
  ∀ s : State, s.slot = .masterRow →
    step s = .next { s with
      slot := Slot.masterRow.next s.slaves.length
      master := Reference.masterCycle s.k s.pins s.busIn s.master }

/-- When every driver has had its turn, `bus_in` is the wired-AND of R62, and no register has changed. -/
def Obligations.LineIsTheWiredAndOfItsDrivers : Prop :=
  ∀ s : State, s.atCycleStart →
    ∃ t, s.run (s.slaves.length + 1) = .next t ∧ t.slot = .masterRow ∧ t.busIn = Reference.line s ∧
      t.master = s.master ∧ t.slaves = s.slaves ∧ t.pins = s.pins ∧ t.stim = s.stim

/-! ## The symbols -/

/-- R111. -/
def Obligations.SymbolShapes : Prop :=
  [Symbol.start, .bit1, .bit0, .ackq].map (fun x => (lowLen x, highLen x, totLen x)) =
      [(18, 2, 20), (8, 2, 10), (2, 8, 10), (2, 8, 10)] ∧
    (∀ x, totLen x = lowLen x + highLen x) ∧ ∀ x, x ≠ .start → totLen x = 10 ∧ totLen x < totLen .start

/-- START, BIT1 and BIT0 drive Low while the offset is in their Low phase, and change nothing else. -/
def Obligations.SymbolsDriveTheirLowPhase : Prop :=
  ∀ s : State,
    exec .start s = .next { s with wire := if s.master.t < 18 * s.k then .low else s.wire } ∧
      exec .bit1 s = .next { s with wire := if s.master.t < 8 * s.k then .low else s.wire } ∧
      exec .bit0 s = .next { s with wire := if s.master.t < 2 * s.k then .low else s.wire }

/-- ACKQ drives Low for `2K` cycles and at offset `5K` gives whether the line is Low. -/
def Obligations.AckQueryDrivesAndSamples : Prop :=
  ∀ s : State,
    exec .ackq s = .next { s with
      wire := if s.master.t < 2 * s.k then .low else s.wire
      ackWire := if s.master.t = 5 * s.k then some (decide (s.busIn = .low)) else none }

/-- ACKR drives Low; a slave gives it in exactly the cycles with `acking = 1` (R116, R188). -/
def Obligations.AckResponseDrivesWhileAcking : Prop :=
  (∀ s : State, exec .ackr s = .next { s with wire := .low }) ∧
    ∀ (s : State) (j : Nat) (v : Slave), s.slot = .ackDrive j → s.slaves[j]? = some v →
      step s = .next { s with
        slot := (Slot.ackDrive j).next s.slaves.length
        wire := if v.acking then .low else s.wire }

/-- In every cycle of a symbol its emitter drives Low exactly where the unit string has a Low (R80). -/
def Obligations.WaveformIsItsUnitString : Prop :=
  ∀ (x : Symbol) (k t : Nat), 0 < k → t < totLen x * k →
    ∃ units sample, encode (symbolInstr x) = .symbol units sample ∧ units.length = totLen x ∧
      units[t / k]? = some (if emitsLow k x t then .low else .high)

/-- R130: the symbol of each index, and the master's drive in its turn. -/
def Obligations.MasterDrivesByItsSymbol : Prop :=
  (∀ m : Master,
    (m.idx = 0 → symbolAt m = .start) ∧
      (∀ i, 1 ≤ i → i ≤ 5 → m.idx.toNat = i →
        symbolAt m = if m.a.getLsbD (i - 1) then .bit1 else .bit0) ∧
      (m.idx = 6 → symbolAt m = .ackq) ∧
      (m.idx = 7 → symbolAt m = if m.d.getLsbD 0 then .bit1 else .bit0) ∧
      (m.idx = 8 → symbolAt m = .ackq)) ∧
    ∀ s : State, s.slot = .symbolDrive →
      ∃ ack, step s = .next { s with
        slot := .masterRow
        wire := if s.master.busy = true ∧ s.master.t < lowLen (symbolAt s.master) * s.k then .low else s.wire
        ackWire := ack }

/-! ## The master's rows -/

/-- M_IDLE_WAIT writes nothing but `m_done` (R133). -/
def Obligations.IdleWaitOnlyClearsDone : Prop :=
  ∀ s : State, exec .mIdleWait s = .next { s with master := { s.master with done := false } }

/-- M_ACCEPT latches the request and starts the frame (R134). -/
def Obligations.AcceptLatchesTheRequest : Prop :=
  ∀ s : State,
    exec .mAccept s = .next { s with
      master := { s.master with
        busy := true, idx := 0, t := 0, a := s.pins.mAddr.extractLsb' 0 5, d := s.pins.mData.extractLsb' 0 1,
        done := false } }

/-- M_REJECT reports UsageError and leaves the rest of the master alone (R135). -/
def Obligations.RejectReportsUsageError : Prop :=
  ∀ s : State, exec .mReject s = .next { s with master := { s.master with result := 4, done := true } }

/-- M_HAL_FAIL, M_ACK_NACK and M_FINISH_OK end the frame with their codes (R136, R137, R141, R142). -/
def Obligations.FramesEndWithTheirCode : Prop :=
  ∀ s : State,
    exec .mHalFail s = .next { s with
        master := { s.master with busy := false, result := 3, done := true } } ∧
      exec .mAckNack s = .next { s with
        master := { s.master with
          busy := false, result := (if s.master.idx = 6 then 1 else 2), done := true } } ∧
      exec .mFinishOk s = .next { s with
        master := { s.master with busy := false, result := 0, done := true } }

/-- M_ACK_SEEN and M_HOLD count one cycle, without wrapping inside a symbol; M_NEXT_SYMBOL goes to the first
cycle of the next symbol (R138 to R140). -/
def Obligations.SymbolsAreCountedThrough : Prop :=
  ∀ s : State,
    (∃ n, exec .mAckSeen s = .next { s with master := { s.master with t := n, done := false } } ∧
        exec .mHold s = .next { s with master := { s.master with t := n, done := false } } ∧
        (s.master.t + 1 < 20 * s.k → n = s.master.t + 1)) ∧
      exec .mNextSymbol s = .next { s with
        master := { s.master with t := 0, idx := s.master.idx + 1, done := false } }

/-! ## The slave's rows: each changes the registers named of the slave whose turn it is, and nothing else -/

/-- LVL_IGNORE_RISE (R166). -/
def Obligations.IgnoredRiseOnlyClearsItsFlag : Prop :=
  ∀ s : State,
    exec .lvlIgnoreRise s = .next { s with
      slaves := s.slaves.modify s.slot.unit fun v => { v with ignoreRise := false } }

/-- IDLE_START_ARM arms 15 units, RX_BIT_ARM 5 (R167, R172). -/
def Obligations.FallingEdgesArmTheCountdown : Prop :=
  ∀ s : State,
    let armed (d : Nat) : State := { s with
      slaves := s.slaves.modify s.slot.unit fun v =>
        { v with ignoreRise := false, tmr := d * s.k, awaitingTimer := true } }
    exec .idleStartArm s = .next (armed 15) ∧ exec .rxBitArmA s = .next (armed 5) ∧
      exec .rxBitArmD s = .next (armed 5)

/-- R164, whatever the cause: every register but those it names takes its reset value; and every violation
row is this reset of the slave whose turn it is (V1 to V8: R168, R170, R171, R173, R175, R177, R179, R181). -/
def Obligations.ViolationsResetInPlace : Prop :=
  let idle (v : Slave) : Slave :=
    { ownAddress := v.ownAddress, phase := .idle, addressAccum := 0, dataAccum := 0, currentBit := 0,
      awaitingTimer := false, acking := false, lastSampled := .high, ignoreRise := false, tmr := v.tmr,
      linePrev := v.linePrev, rxValid := v.rxValid, rxData := v.rxData, halFail := v.halFail }
  (∀ (c : Cause) (v : Slave), resetToIdle c v = idle v) ∧
    ∀ (s : State),
      ∀ i ∈ [Instr.idleLowWaiting, .idleStartMalformed, .idleStartShort, .rxLowWaitingA, .rxLowWaitingD,
          .raAddrMismatch, .rxHighFieldFullA, .rxHighFieldFullD, .rxBitOneBadA, .rxBitOneBadD, .doneEventL,
          .doneEventH],
        exec i s = .next { s with slaves := s.slaves.modify s.slot.unit idle }

/-- IDLE_START_OK (R169). -/
def Obligations.StartMovesToReceivingAddress : Prop :=
  ∀ s : State,
    exec .idleStartOk s = .next { s with
      slaves := s.slaves.modify s.slot.unit fun v =>
        { v with ignoreRise := false, phase := .receivingAddress, currentBit := 0 } }

/-- RA_ADDR_ACK (R174), and with a failing driver R187. -/
def Obligations.AddressAckDrivesAndMovesOn : Prop :=
  ∀ s : State,
    exec .raAddrAck s = .next { s with
      slaves := s.slaves.modify s.slot.unit fun v =>
        if (s.pins.slave s.slot.unit).drvFault then { v.resetInPlace with halFail := true }
        else { v with
          ignoreRise := false, acking := true, tmr := 8 * s.k, awaitingTimer := true, currentBit := 0,
          phase := .receivingData } }

/-- RD_DATA_ACK (R176), and with a failing driver R187. -/
def Obligations.DataAckDrivesAndMovesOn : Prop :=
  ∀ s : State,
    exec .rdDataAck s = .next { s with
      slaves := s.slaves.modify s.slot.unit fun v =>
        if (s.pins.slave s.slot.unit).drvFault then { v.resetInPlace with halFail := true }
        else { v with
          ignoreRise := false, acking := true, tmr := 8 * s.k, awaitingTimer := true, phase := .done } }

/-- RX_BIT_ONE (R178): the bit at `current_bit` of the active accumulator is set, the other accumulator kept,
and the bit counted; beyond the field's width the accumulator is a free value (log 10). -/
def Obligations.BitOneSetsTheCountedBit : Prop :=
  ∀ s : State, ∃ (fa : Slave → BitVec 5) (fd : Slave → BitVec 1),
    (∀ v : Slave, v.phase ≠ .receivingAddress → fa v = v.addressAccum) ∧
      (∀ v : Slave, v.phase = .receivingAddress → fd v = v.dataAccum) ∧
      (∀ v : Slave, v.phase = .receivingAddress → v.currentBit.toNat < 5 →
        ∀ n, (fa v).getLsbD n = (v.addressAccum.getLsbD n || decide (n = v.currentBit.toNat))) ∧
      (∀ v : Slave, v.phase ≠ .receivingAddress → v.currentBit.toNat < 1 → fd v = 1) ∧
      ∀ i ∈ [Instr.rxBitOneA, .rxBitOneD],
        exec i s = .next { s with
          slaves := s.slaves.modify s.slot.unit fun v =>
            { v with
              ignoreRise := false, addressAccum := fa v, dataAccum := fd v, currentBit := v.currentBit + 1 } }

/-- RX_BIT_ZERO (R180). -/
def Obligations.BitZeroOnlyCounts : Prop :=
  ∀ (s : State), ∀ i ∈ [Instr.rxBitZeroA, .rxBitZeroD],
    exec i s = .next { s with
      slaves := s.slaves.modify s.slot.unit fun v =>
        { v with ignoreRise := false, currentBit := v.currentBit + 1 } }

/-- TMR_PLAIN (R183). -/
def Obligations.PlainExpiryOnlySamples : Prop :=
  ∀ (s : State), ∀ i ∈ [Instr.tmrPlainI, .tmrPlainA, .tmrPlainD],
    exec i s = .next { s with
      slaves := s.slaves.modify s.slot.unit fun v =>
        { v with lastSampled := s.busIn, awaitingTimer := false } }

/-- TMR_ADDR_ACK_END (R184), and with a failing driver R187. -/
def Obligations.AddressAckEndReleases : Prop :=
  ∀ s : State,
    exec .tmrAddrAckEnd s = .next { s with
      slaves := s.slaves.modify s.slot.unit fun v =>
        if (s.pins.slave s.slot.unit).drvFault then { v.resetInPlace with halFail := true }
        else { v with
          lastSampled := s.busIn, awaitingTimer := false, acking := false, ignoreRise := true } }

/-- TMR_DATA_ACK_END (R185): the delivery and the reset in place; a failing driver replaces both, but only
where the row calls it, with `acking = 1` (R187). -/
def Obligations.DataAckEndDelivers : Prop :=
  ∀ s : State,
    exec .tmrDataAckEnd s = .next { s with
      slaves := s.slaves.modify s.slot.unit fun v =>
        if (s.pins.slave s.slot.unit).drvFault = true ∧ v.acking = true then
          { v.resetInPlace with halFail := true }
        else { v.resetInPlace with rxData := v.dataAccum, rxValid := true } }

/-- TMR_STRAY_ACK (R186), and with a failing driver R187. -/
def Obligations.StrayAckReleases : Prop :=
  ∀ (s : State), ∀ i ∈ [Instr.tmrStrayAckI, .tmrStrayAckA],
    exec i s = .next { s with
      slaves := s.slaves.modify s.slot.unit fun v =>
        if (s.pins.slave s.slot.unit).drvFault then { v.resetInPlace with halFail := true }
        else { v with lastSampled := s.busIn, awaitingTimer := false, acking := false } }

/-! ## Reset -/

/-- In a cycle with `rst = 1` a unit takes its reset values and runs no row (R230); a slave's `line_prev`
takes `bus_in` and its `own_address` the configuration input (R190, R232). -/
def Obligations.ResetWritesEveryRegister : Prop :=
  (∀ s : State, s.slot = .masterRow → s.pins.mRst = true →
    step s = .next { s with
      slot := Slot.masterRow.next s.slaves.length
      master := { busy := false, idx := 0, t := 0, a := 0, d := 0, result := 0, done := false } }) ∧
    ∀ (s : State) (j : Nat) (v : Slave), s.slaves[j]? = some v → (s.pins.slave j).rst = true →
      (s.slot = .timer j →
        step s = .next { s with
          slot := .level j
          slaves := s.slaves.set j
            { ownAddress := (s.pins.slave j).cfgOwnAddress, phase := .idle, addressAccum := 0, dataAccum := 0,
              currentBit := 0, awaitingTimer := false, acking := false, lastSampled := .high,
              ignoreRise := false, tmr := 0, linePrev := s.busIn, rxValid := false, rxData := 0,
              halFail := false } }) ∧
      (s.slot = .level j →
        step s = .next { s with
          slot := (Slot.level j).next s.slaves.length
          slaves := s.slaves.set j { v with linePrev := s.busIn } })

/-- The state after reset. The address 0x0b and the High `line_prev` stand for inputs of the reset cycle
and, with `K = 1` and the one slave, are the model's choice (logs 2 and 3). -/
def Obligations.ResetStateHoldsTheResetValues : Prop :=
  State.reset.master = { busy := false, idx := 0, t := 0, a := 0, d := 0, result := 0, done := false } ∧
    State.reset.slaves =
      [{ ownAddress := 0x0b, phase := .idle, addressAccum := 0, dataAccum := 0, currentBit := 0,
         awaitingTimer := false, acking := false, lastSampled := .high, ignoreRise := false, tmr := 0,
         linePrev := .high, rxValid := false, rxData := 0, halFail := false }] ∧
    State.reset.k = 1 ∧ State.reset.atCycleStart

/-! ## Invariants and frames over every step -/

/-- 10_state.md R34's invariants (the spec's own inference), with the clause about the line that makes them
inductive, are kept by every step of a system whose line nobody forces High. -/
def Obligations.SlaveInvariantsKept : Prop :=
  ∀ s t : State, s.wiredAnd → s.SlavesSound → step s = .next t → t.wiredAnd ∧ t.SlavesSound

/-- The invariants hold after reset; those of R34 the spec marks as its own inference. -/
def Obligations.InvariantsHoldAtReset : Prop :=
  State.reset.wiredAnd ∧ State.reset.SlavesSound ∧ State.reset.master.Sound State.reset.k ∧
    State.reset.CountersBounded

/-- Every state that a system on a wired-AND line reaches from reset, with any inputs, meets R34 (the spec's own
inference). -/
def Obligations.ReachableSlavesAreSound : Prop :=
  ∀ (params : Params) (owns : List (BitVec 5)) (pins : Pins) (stim : List Pins) (n : Nat) (t : State),
    (State.fresh params owns pins stim).wiredAnd →
    (State.fresh params owns pins stim).run n = .next t → ∀ v ∈ t.slaves, v.Sound

/-- The master's control point stays one that a frame has, and its result one of the five codes. -/
def Obligations.MasterInvariantKept : Prop :=
  ∀ s t : State, s.master.Sound s.k → step s = .next t → t.master.Sound t.k

/-- The counters stay within R25's bound and R9's widths. -/
def Obligations.CountersStayBounded : Prop :=
  ∀ s t : State, s.CountersBounded → step s = .next t → t.CountersBounded

/-- R190: `own_address` takes `cfg_own_address` in every cycle with `rst = 1` and changes in no other. -/
def Obligations.OwnAddressChangesOnlyInReset : Prop :=
  ∀ (s t : State) (j : Nat) (v : Slave), s.slaves[j]? = some v → step s = .next t →
    ∃ w, t.slaves[j]? = some w ∧
      w.ownAddress = if s.slot = .timer j ∧ (s.pins.slave j).rst = true
        then (s.pins.slave j).cfgOwnAddress else v.ownAddress

/-- Outside reset, `rx_data` changes and `rx_valid` rises only at the end of a data Ack hold whose driver does
not fail; the value is then the data received, and the slave is Idle (R185, R189). -/
def Obligations.DeliveryOnlyAfterTheDataAck : Prop :=
  ∀ (s t : State) (j : Nat) (v w : Slave), s.slaves[j]? = some v → t.slaves[j]? = some w →
    step s = .next t → w.rxData ≠ v.rxData ∨ (v.rxValid = false ∧ w.rxValid = true) →
    s.slot = .timer j ∧
      ((s.pins.slave j).rst = true ∨
        (v.phase = .done ∧ v.tmr = 1 ∧ ¬ ((s.pins.slave j).drvFault = true ∧ v.acking = true) ∧
          w.rxValid = true ∧ w.rxData = v.dataAccum ∧ w.phase = .idle ∧ w.acking = false))

/-- `m_result` changes only in the master's turn, by a finish, whose `m_done` rises with it, or by a reset
(R72, R142, R231). -/
def Obligations.ResultHeldUntilTheNextFinish : Prop :=
  ∀ s t : State, step s = .next t → t.master.result ≠ s.master.result →
    s.slot = .masterRow ∧ ((s.pins.mRst = true ∧ t.master = Master.atReset) ∨
      (t.master.done = true ∧ t.master.busy = false))

/-- A turn changes no register of another unit and never the parameter `K` (R70, R214). -/
def Obligations.TurnsTouchOnlyTheirOwnUnit : Prop :=
  ∀ s t : State, step s = .next t →
    t.params = s.params ∧ t.slaves.length = s.slaves.length ∧
      (s.slot ≠ .masterRow → t.master = s.master) ∧
      (s.slot ≠ .clock → t.pins = s.pins ∧ t.stim = s.stim) ∧
      ∀ j, s.slot ≠ .timer j → s.slot ≠ .level j → t.slaves[j]? = s.slaves[j]?

/-- What a slave's turn makes of it depends on its own registers and inputs, the line and `K` only: other
units reach it through the line alone (R214). -/
def Obligations.SlaveSeesOthersOnlyThroughTheLine : Prop :=
  ∀ (s1 s2 t1 t2 : State) (j : Nat), s1.slot = s2.slot → (s1.slot = .timer j ∨ s1.slot = .level j) →
    s1.slaves[j]? = s2.slaves[j]? → s1.pins.slave j = s2.pins.slave j → s1.busIn = s2.busIn →
    s1.k = s2.k → step s1 = .next t1 → step s2 = .next t2 → t1.slaves[j]? = t2.slaves[j]?

/-- A slave begins to drive the line only at a falling edge that ends a complete field of a frame for it, with
no countdown outstanding and a working driver (R174, R176, R188). -/
def Obligations.SlavesDriveOnlyToAcknowledge : Prop :=
  ∀ (s t : State) (j : Nat) (v w : Slave), s.slaves[j]? = some v → t.slaves[j]? = some w →
    step s = .next t → v.acking = false → w.acking = true →
    s.slot = .level j ∧ (s.pins.slave j).rst = false ∧ (s.pins.slave j).drvFault = false ∧
      v.linePrev = .high ∧ s.busIn = .low ∧ v.awaitingTimer = false ∧
      ((v.phase = .receivingAddress ∧ v.currentBit = 5 ∧ v.addressAccum = v.ownAddress) ∨
        (v.phase = .receivingData ∧ v.currentBit = 1))

/-! ## Many cycles, for every `K` -/

/-- R118's table, which the spec marks as its own inference: how a slave that receives a field decodes a Low
of `L` cycles. -/
def Obligations.BitThresholds : Prop :=
  ∀ (k L : Nat) (v : Slave), 0 < k → 1 ≤ L →
    ((v.phase = .receivingAddress ∧ v.currentBit.toNat < 5) ∨
      (v.phase = .receivingData ∧ v.currentBit.toNat < 1)) →
    v.awaitingTimer = false → v.acking = false → v.linePrev = .high →
    let w := Reference.listen k (List.replicate L .low ++ [.high]) v
    (L < 5 * k → w.phase = v.phase ∧ w.currentBit = v.currentBit + 1 ∧
        w.addressAccum = v.addressAccum ∧ w.dataAccum = v.dataAccum ∧ w.awaitingTimer = true) ∧
      (L = 5 * k → w.phase = .idle ∧ w.currentBit = 0 ∧ w.addressAccum = 0 ∧ w.dataAccum = 0 ∧
        w.awaitingTimer = false ∧ w.lastSampled = .high) ∧
      (5 * k < L → w.phase = v.phase ∧ w.currentBit = v.currentBit + 1 ∧ w.awaitingTimer = false ∧
        w.lastSampled = .low ∧
        (v.phase = .receivingAddress → w.dataAccum = v.dataAccum ∧
          w.addressAccum = v.addressAccum ||| (1#5 <<< v.currentBit.toNat)) ∧
        (v.phase = .receivingData → w.dataAccum = 1 ∧ w.addressAccum = v.addressAccum))

/-- R119's table, which the spec marks as its own inference: how an Idle slave decodes a Low of `L` cycles. -/
def Obligations.StartThresholds : Prop :=
  ∀ (k L : Nat) (v : Slave), 0 < k → 1 ≤ L → v.phase = .idle → v.awaitingTimer = false →
    v.linePrev = .high →
    let w := Reference.listen k (List.replicate L .low ++ [.high]) v
    (L < 15 * k → w.phase = .idle ∧ w.awaitingTimer = false ∧ w.lastSampled = .high ∧ w.tmr = 15 * k - L) ∧
      (L = 15 * k → w.phase = .idle ∧ w.awaitingTimer = false ∧ w.lastSampled = .high) ∧
      (15 * k < L → w.phase = .receivingAddress ∧ w.currentBit = 0 ∧ w.awaitingTimer = false)

/-- R116: an acknowledged query keeps the slave driving for exactly `8K` cycles, from the cycle after its
falling edge. -/
def Obligations.AckHoldLastsEightUnits : Prop :=
  ∀ (k n : Nat) (v : Slave), 0 < k → v.phase = .receivingAddress → v.awaitingTimer = false →
    v.currentBit = 5 → v.addressAccum = v.ownAddress → v.linePrev = .high →
    let w := Reference.listen k (List.replicate n .low) v
    (1 ≤ n → n ≤ 8 * k → w.acking = true ∧ w.phase = .receivingData) ∧
      (n = 8 * k + 1 → w.acking = false ∧ w.ignoreRise = true ∧ w.phase = .receivingData)

/-- R161: a countdown of `v` cycles, undisturbed, expires `v - 1` cycles after the current one; until then only
it and the pulses change. -/
def Obligations.CountdownExpiresOnTime : Prop :=
  ∀ (k n : Nat) (line : Level) (v : Slave), v.linePrev = line → n < v.tmr →
    Reference.listen k (List.replicate n line) v =
        { v with
          tmr := v.tmr - n
          rxValid := if n = 0 then v.rxValid else false
          halFail := if n = 0 then v.halFail else false } ∧
      (n + 1 = v.tmr → v.acking = false → v.phase ≠ .done →
        let w := Reference.listen k (List.replicate (n + 1) line) v
        w.tmr = 0 ∧ w.lastSampled = line ∧ w.awaitingTimer = false ∧ w.phase = v.phase)

/-- R143 (the spec's own inference), counted from the frame's first cycle `T0`: without a fault the
frame's control point is where its cycle says, and the frame ends at the address sample, at the data sample or after the last symbol, with the
outcome that the samples give. -/
def Obligations.FrameTimeline : Prop :=
  ∀ (k : Nat) (ports : Nat → Pins) (levels : Nat → Level) (m : Master), 0 < k →
    m.busy = true → m.idx = 0 → m.t = 0 → (∀ n, (ports n).mRst = false ∧ (ports n).mDrvFault = false) →
    let at_ := Reference.transmit k ports levels m
    let stop := if levels (75 * k) = .high then 75 * k
      else if levels (95 * k) = .high then 95 * k else 100 * k - 1
    (∀ n ≤ stop, (at_ n).busy = true ∧ (at_ n).elapsed k = n ∧ (at_ n).idx.toNat ≤ 8 ∧
        (at_ n).t < (if (at_ n).idx = 0 then 20 * k else 10 * k) ∧ (at_ n).a = m.a ∧ (at_ n).d = m.d) ∧
      (at_ (stop + 1)).busy = false ∧ (at_ (stop + 1)).done = true ∧
      (at_ (stop + 1)).result =
        if levels (75 * k) = .high then 1 else if levels (95 * k) = .high then 2 else 0

/-- R144: whatever its inputs, a busy master is idle again within the cycles of one frame. -/
def Obligations.FrameEndsInTime : Prop :=
  ∀ (k : Nat) (ports : Nat → Pins) (levels : Nat → Level) (m : Master), 0 < k → m.Sound k →
    m.busy = true → ∃ n ≤ 100 * k, (Reference.transmit k ports levels m n).busy = false

/-- For every `K`, every address and every data value: a request to a slave of that address, both fresh from
reset, delivers the data in cycle `T0 + 98K + 1` and ends with Ok in cycle `T0 + 100K`, where `T0 = 1`. The
cycle numbers are those of R143 and R191 (95_test_vectors.md X2, item 8.1), which the spec marks as its own
inference; the system just after reset and its idle ports after the request are the model's (logs 3 and 4). -/
def Obligations.EveryFrameIsDelivered : Prop :=
  ∀ (params : Params) (a : BitVec 5) (d : BitVec 1),
    let s := State.fresh params [a]
      { Pins.idle with mStart := true, mAddr := a.setWidth 32, mData := d.setWidth 32 } []
    (∃ t, s.run (turnsPerCycle 1 * (98 * params.k + 2)) = .next t ∧
        t.slaves.map (fun v => (v.rxValid, v.rxData)) = [(true, d)]) ∧
      ∃ t, s.run (turnsPerCycle 1 * (100 * params.k + 1)) = .next t ∧
        t.master.done = true ∧ t.master.result = 0
end

