-- ==== Sys2Proof/Laws/Decode.lean ====
section
/-! SUPPORT. Decoding a select vector: the row whose bits match is the row that decodes. -/

namespace Sys2Proof

/-- Only one transition row selects a TSV: a finite check over the 1024 values. -/
theorem tsvRows_find_selected : ∀ r ∈ tsvRows, ∀ v : BitVec 10, r.selects v = true →
    (tsvRows.find? fun q => q.selects v).map (·.instr) = some r.instr := by decide +kernel

/-- Only one step row selects an MSV: a finite check over the 256 values. -/
theorem msvRows_find_selected : ∀ r ∈ msvRows, ∀ v : BitVec 8, r.selects v = true →
    (msvRows.find? fun q => q.selects v).map (·.instr) = some r.instr := by decide +kernel

/-- A transition row is decoded from every TSV it selects. -/
theorem decode_tsv_of_selects {r : SelectRow 10} (hr : r ∈ tsvRows) {v : BitVec 10}
    (hv : r.selects v = true) : decode (.tsv v) = .ok r.instr := by
  obtain ⟨q, hq, hi⟩ := Option.map_eq_some_iff.mp (tsvRows_find_selected r hr v hv)
  simp only [decode, hq, hi]

/-- A step row is decoded from every MSV it selects. -/
theorem decode_msv_of_selects {r : SelectRow 8} (hr : r ∈ msvRows) {v : BitVec 8}
    (hv : r.selects v = true) : decode (.msv v) = .ok r.instr := by
  obtain ⟨q, hq, hi⟩ := Option.map_eq_some_iff.mp (msvRows_find_selected r hr v hv)
  simp only [decode, hq, hi]

end Sys2Proof
end

