-- ==== Sys2Proof/Laws/State.lean ====
section
/-! SUPPORT. One lemma for each field of each update: what the operation makes of the field. All hold by
unfolding once, so that no later proof unfolds a record update. -/

namespace Sys2Proof.Machine

/-! ## The slave -/

@[simp] theorem arm_ownAddress (k d : Nat) (v : Slave) : (arm k d v).ownAddress = v.ownAddress := rfl
@[simp] theorem arm_phase (k d : Nat) (v : Slave) : (arm k d v).phase = v.phase := rfl
@[simp] theorem arm_addressAccum (k d : Nat) (v : Slave) : (arm k d v).addressAccum = v.addressAccum := rfl
@[simp] theorem arm_dataAccum (k d : Nat) (v : Slave) : (arm k d v).dataAccum = v.dataAccum := rfl
@[simp] theorem arm_currentBit (k d : Nat) (v : Slave) : (arm k d v).currentBit = v.currentBit := rfl
@[simp] theorem arm_awaitingTimer (k d : Nat) (v : Slave) : (arm k d v).awaitingTimer = true := rfl
@[simp] theorem arm_acking (k d : Nat) (v : Slave) : (arm k d v).acking = v.acking := rfl
@[simp] theorem arm_lastSampled (k d : Nat) (v : Slave) : (arm k d v).lastSampled = v.lastSampled := rfl
@[simp] theorem arm_ignoreRise (k d : Nat) (v : Slave) : (arm k d v).ignoreRise = v.ignoreRise := rfl
@[simp] theorem arm_tmr (k d : Nat) (v : Slave) : (arm k d v).tmr = cycles k d := rfl
@[simp] theorem arm_linePrev (k d : Nat) (v : Slave) : (arm k d v).linePrev = v.linePrev := rfl
@[simp] theorem arm_rxValid (k d : Nat) (v : Slave) : (arm k d v).rxValid = v.rxValid := rfl
@[simp] theorem arm_rxData (k d : Nat) (v : Slave) : (arm k d v).rxData = v.rxData := rfl
@[simp] theorem arm_halFail (k d : Nat) (v : Slave) : (arm k d v).halFail = v.halFail := rfl

@[simp] theorem driveLow_ownAddress (v : Slave) : (driveLow v).ownAddress = v.ownAddress := rfl
@[simp] theorem driveLow_phase (v : Slave) : (driveLow v).phase = v.phase := rfl
@[simp] theorem driveLow_addressAccum (v : Slave) : (driveLow v).addressAccum = v.addressAccum := rfl
@[simp] theorem driveLow_dataAccum (v : Slave) : (driveLow v).dataAccum = v.dataAccum := rfl
@[simp] theorem driveLow_currentBit (v : Slave) : (driveLow v).currentBit = v.currentBit := rfl
@[simp] theorem driveLow_awaitingTimer (v : Slave) : (driveLow v).awaitingTimer = v.awaitingTimer := rfl
@[simp] theorem driveLow_acking (v : Slave) : (driveLow v).acking = true := rfl
@[simp] theorem driveLow_lastSampled (v : Slave) : (driveLow v).lastSampled = v.lastSampled := rfl
@[simp] theorem driveLow_ignoreRise (v : Slave) : (driveLow v).ignoreRise = v.ignoreRise := rfl
@[simp] theorem driveLow_tmr (v : Slave) : (driveLow v).tmr = v.tmr := rfl
@[simp] theorem driveLow_linePrev (v : Slave) : (driveLow v).linePrev = v.linePrev := rfl
@[simp] theorem driveLow_rxValid (v : Slave) : (driveLow v).rxValid = v.rxValid := rfl
@[simp] theorem driveLow_rxData (v : Slave) : (driveLow v).rxData = v.rxData := rfl
@[simp] theorem driveLow_halFail (v : Slave) : (driveLow v).halFail = v.halFail := rfl

@[simp] theorem release_ownAddress (v : Slave) : (release v).ownAddress = v.ownAddress := rfl
@[simp] theorem release_phase (v : Slave) : (release v).phase = v.phase := rfl
@[simp] theorem release_addressAccum (v : Slave) : (release v).addressAccum = v.addressAccum := rfl
@[simp] theorem release_dataAccum (v : Slave) : (release v).dataAccum = v.dataAccum := rfl
@[simp] theorem release_currentBit (v : Slave) : (release v).currentBit = v.currentBit := rfl
@[simp] theorem release_awaitingTimer (v : Slave) : (release v).awaitingTimer = v.awaitingTimer := rfl
@[simp] theorem release_acking (v : Slave) : (release v).acking = false := rfl
@[simp] theorem release_lastSampled (v : Slave) : (release v).lastSampled = v.lastSampled := rfl
@[simp] theorem release_ignoreRise (v : Slave) : (release v).ignoreRise = v.ignoreRise := rfl
@[simp] theorem release_tmr (v : Slave) : (release v).tmr = v.tmr := rfl
@[simp] theorem release_linePrev (v : Slave) : (release v).linePrev = v.linePrev := rfl
@[simp] theorem release_rxValid (v : Slave) : (release v).rxValid = v.rxValid := rfl
@[simp] theorem release_rxData (v : Slave) : (release v).rxData = v.rxData := rfl
@[simp] theorem release_halFail (v : Slave) : (release v).halFail = v.halFail := rfl

@[simp] theorem resetToIdle_ownAddress (c : Cause) (v : Slave) : (resetToIdle c v).ownAddress = v.ownAddress := rfl
@[simp] theorem resetToIdle_phase (c : Cause) (v : Slave) : (resetToIdle c v).phase = .idle := rfl
@[simp] theorem resetToIdle_addressAccum (c : Cause) (v : Slave) : (resetToIdle c v).addressAccum = 0 := rfl
@[simp] theorem resetToIdle_dataAccum (c : Cause) (v : Slave) : (resetToIdle c v).dataAccum = 0 := rfl
@[simp] theorem resetToIdle_currentBit (c : Cause) (v : Slave) : (resetToIdle c v).currentBit = 0 := rfl
@[simp] theorem resetToIdle_awaitingTimer (c : Cause) (v : Slave) : (resetToIdle c v).awaitingTimer = false := rfl
@[simp] theorem resetToIdle_acking (c : Cause) (v : Slave) : (resetToIdle c v).acking = false := rfl
@[simp] theorem resetToIdle_lastSampled (c : Cause) (v : Slave) : (resetToIdle c v).lastSampled = .high := rfl
@[simp] theorem resetToIdle_ignoreRise (c : Cause) (v : Slave) : (resetToIdle c v).ignoreRise = false := rfl
@[simp] theorem resetToIdle_tmr (c : Cause) (v : Slave) : (resetToIdle c v).tmr = v.tmr := rfl
@[simp] theorem resetToIdle_linePrev (c : Cause) (v : Slave) : (resetToIdle c v).linePrev = v.linePrev := rfl
@[simp] theorem resetToIdle_rxValid (c : Cause) (v : Slave) : (resetToIdle c v).rxValid = v.rxValid := rfl
@[simp] theorem resetToIdle_rxData (c : Cause) (v : Slave) : (resetToIdle c v).rxData = v.rxData := rfl
@[simp] theorem resetToIdle_halFail (c : Cause) (v : Slave) : (resetToIdle c v).halFail = v.halFail := rfl

@[simp] theorem deliver_ownAddress (x : BitVec 1) (v : Slave) : (deliver x v).ownAddress = v.ownAddress := rfl
@[simp] theorem deliver_phase (x : BitVec 1) (v : Slave) : (deliver x v).phase = v.phase := rfl
@[simp] theorem deliver_addressAccum (x : BitVec 1) (v : Slave) : (deliver x v).addressAccum = v.addressAccum := rfl
@[simp] theorem deliver_dataAccum (x : BitVec 1) (v : Slave) : (deliver x v).dataAccum = v.dataAccum := rfl
@[simp] theorem deliver_currentBit (x : BitVec 1) (v : Slave) : (deliver x v).currentBit = v.currentBit := rfl
@[simp] theorem deliver_awaitingTimer (x : BitVec 1) (v : Slave) : (deliver x v).awaitingTimer = v.awaitingTimer := rfl
@[simp] theorem deliver_acking (x : BitVec 1) (v : Slave) : (deliver x v).acking = v.acking := rfl
@[simp] theorem deliver_lastSampled (x : BitVec 1) (v : Slave) : (deliver x v).lastSampled = v.lastSampled := rfl
@[simp] theorem deliver_ignoreRise (x : BitVec 1) (v : Slave) : (deliver x v).ignoreRise = v.ignoreRise := rfl
@[simp] theorem deliver_tmr (x : BitVec 1) (v : Slave) : (deliver x v).tmr = v.tmr := rfl
@[simp] theorem deliver_linePrev (x : BitVec 1) (v : Slave) : (deliver x v).linePrev = v.linePrev := rfl
@[simp] theorem deliver_rxValid (x : BitVec 1) (v : Slave) : (deliver x v).rxValid = true := rfl
@[simp] theorem deliver_rxData (x : BitVec 1) (v : Slave) : (deliver x v).rxData = x := rfl
@[simp] theorem deliver_halFail (x : BitVec 1) (v : Slave) : (deliver x v).halFail = v.halFail := rfl

@[simp] theorem levelEvent_ownAddress (v : Slave) : (levelEvent v).ownAddress = v.ownAddress := rfl
@[simp] theorem levelEvent_phase (v : Slave) : (levelEvent v).phase = v.phase := rfl
@[simp] theorem levelEvent_addressAccum (v : Slave) : (levelEvent v).addressAccum = v.addressAccum := rfl
@[simp] theorem levelEvent_dataAccum (v : Slave) : (levelEvent v).dataAccum = v.dataAccum := rfl
@[simp] theorem levelEvent_currentBit (v : Slave) : (levelEvent v).currentBit = v.currentBit := rfl
@[simp] theorem levelEvent_awaitingTimer (v : Slave) : (levelEvent v).awaitingTimer = v.awaitingTimer := rfl
@[simp] theorem levelEvent_acking (v : Slave) : (levelEvent v).acking = v.acking := rfl
@[simp] theorem levelEvent_lastSampled (v : Slave) : (levelEvent v).lastSampled = v.lastSampled := rfl
@[simp] theorem levelEvent_ignoreRise (v : Slave) : (levelEvent v).ignoreRise = false := rfl
@[simp] theorem levelEvent_tmr (v : Slave) : (levelEvent v).tmr = v.tmr := rfl
@[simp] theorem levelEvent_linePrev (v : Slave) : (levelEvent v).linePrev = v.linePrev := rfl
@[simp] theorem levelEvent_rxValid (v : Slave) : (levelEvent v).rxValid = v.rxValid := rfl
@[simp] theorem levelEvent_rxData (v : Slave) : (levelEvent v).rxData = v.rxData := rfl
@[simp] theorem levelEvent_halFail (v : Slave) : (levelEvent v).halFail = v.halFail := rfl

@[simp] theorem timerExpiry_ownAddress (l : Level) (v : Slave) : (timerExpiry l v).ownAddress = v.ownAddress := rfl
@[simp] theorem timerExpiry_phase (l : Level) (v : Slave) : (timerExpiry l v).phase = v.phase := rfl
@[simp] theorem timerExpiry_addressAccum (l : Level) (v : Slave) : (timerExpiry l v).addressAccum = v.addressAccum := rfl
@[simp] theorem timerExpiry_dataAccum (l : Level) (v : Slave) : (timerExpiry l v).dataAccum = v.dataAccum := rfl
@[simp] theorem timerExpiry_currentBit (l : Level) (v : Slave) : (timerExpiry l v).currentBit = v.currentBit := rfl
@[simp] theorem timerExpiry_awaitingTimer (l : Level) (v : Slave) : (timerExpiry l v).awaitingTimer = false := rfl
@[simp] theorem timerExpiry_acking (l : Level) (v : Slave) : (timerExpiry l v).acking = v.acking := rfl
@[simp] theorem timerExpiry_lastSampled (l : Level) (v : Slave) : (timerExpiry l v).lastSampled = l := rfl
@[simp] theorem timerExpiry_ignoreRise (l : Level) (v : Slave) : (timerExpiry l v).ignoreRise = v.ignoreRise := rfl
@[simp] theorem timerExpiry_tmr (l : Level) (v : Slave) : (timerExpiry l v).tmr = v.tmr := rfl
@[simp] theorem timerExpiry_linePrev (l : Level) (v : Slave) : (timerExpiry l v).linePrev = v.linePrev := rfl
@[simp] theorem timerExpiry_rxValid (l : Level) (v : Slave) : (timerExpiry l v).rxValid = v.rxValid := rfl
@[simp] theorem timerExpiry_rxData (l : Level) (v : Slave) : (timerExpiry l v).rxData = v.rxData := rfl
@[simp] theorem timerExpiry_halFail (l : Level) (v : Slave) : (timerExpiry l v).halFail = v.halFail := rfl

@[simp] theorem tick_ownAddress (v : Slave) : (tick v).ownAddress = v.ownAddress := rfl
@[simp] theorem tick_phase (v : Slave) : (tick v).phase = v.phase := rfl
@[simp] theorem tick_addressAccum (v : Slave) : (tick v).addressAccum = v.addressAccum := rfl
@[simp] theorem tick_dataAccum (v : Slave) : (tick v).dataAccum = v.dataAccum := rfl
@[simp] theorem tick_currentBit (v : Slave) : (tick v).currentBit = v.currentBit := rfl
@[simp] theorem tick_awaitingTimer (v : Slave) : (tick v).awaitingTimer = v.awaitingTimer := rfl
@[simp] theorem tick_acking (v : Slave) : (tick v).acking = v.acking := rfl
@[simp] theorem tick_lastSampled (v : Slave) : (tick v).lastSampled = v.lastSampled := rfl
@[simp] theorem tick_ignoreRise (v : Slave) : (tick v).ignoreRise = v.ignoreRise := rfl
@[simp] theorem tick_tmr (v : Slave) : (tick v).tmr = v.tmr - 1 := rfl
@[simp] theorem tick_linePrev (v : Slave) : (tick v).linePrev = v.linePrev := rfl
@[simp] theorem tick_rxValid (v : Slave) : (tick v).rxValid = false := rfl
@[simp] theorem tick_rxData (v : Slave) : (tick v).rxData = v.rxData := rfl
@[simp] theorem tick_halFail (v : Slave) : (tick v).halFail = false := rfl

@[simp] theorem countBit_ownAddress (v : Slave) : (countBit v).ownAddress = v.ownAddress := rfl
@[simp] theorem countBit_phase (v : Slave) : (countBit v).phase = v.phase := rfl
@[simp] theorem countBit_addressAccum (v : Slave) : (countBit v).addressAccum = v.addressAccum := rfl
@[simp] theorem countBit_dataAccum (v : Slave) : (countBit v).dataAccum = v.dataAccum := rfl
@[simp] theorem countBit_currentBit (v : Slave) : (countBit v).currentBit = v.currentBit + 1 := rfl
@[simp] theorem countBit_awaitingTimer (v : Slave) : (countBit v).awaitingTimer = v.awaitingTimer := rfl
@[simp] theorem countBit_acking (v : Slave) : (countBit v).acking = v.acking := rfl
@[simp] theorem countBit_lastSampled (v : Slave) : (countBit v).lastSampled = v.lastSampled := rfl
@[simp] theorem countBit_ignoreRise (v : Slave) : (countBit v).ignoreRise = v.ignoreRise := rfl
@[simp] theorem countBit_tmr (v : Slave) : (countBit v).tmr = v.tmr := rfl
@[simp] theorem countBit_linePrev (v : Slave) : (countBit v).linePrev = v.linePrev := rfl
@[simp] theorem countBit_rxValid (v : Slave) : (countBit v).rxValid = v.rxValid := rfl
@[simp] theorem countBit_rxData (v : Slave) : (countBit v).rxData = v.rxData := rfl
@[simp] theorem countBit_halFail (v : Slave) : (countBit v).halFail = v.halFail := rfl

@[simp] theorem Slave.atReset_ownAddress (a : BitVec 5) (l : Level) : (Slave.atReset a l).ownAddress = a := rfl
@[simp] theorem Slave.atReset_phase (a : BitVec 5) (l : Level) : (Slave.atReset a l).phase = .idle := rfl
@[simp] theorem Slave.atReset_addressAccum (a : BitVec 5) (l : Level) : (Slave.atReset a l).addressAccum = 0 := rfl
@[simp] theorem Slave.atReset_dataAccum (a : BitVec 5) (l : Level) : (Slave.atReset a l).dataAccum = 0 := rfl
@[simp] theorem Slave.atReset_currentBit (a : BitVec 5) (l : Level) : (Slave.atReset a l).currentBit = 0 := rfl
@[simp] theorem Slave.atReset_awaitingTimer (a : BitVec 5) (l : Level) : (Slave.atReset a l).awaitingTimer = false := rfl
@[simp] theorem Slave.atReset_acking (a : BitVec 5) (l : Level) : (Slave.atReset a l).acking = false := rfl
@[simp] theorem Slave.atReset_lastSampled (a : BitVec 5) (l : Level) : (Slave.atReset a l).lastSampled = .high := rfl
@[simp] theorem Slave.atReset_ignoreRise (a : BitVec 5) (l : Level) : (Slave.atReset a l).ignoreRise = false := rfl
@[simp] theorem Slave.atReset_tmr (a : BitVec 5) (l : Level) : (Slave.atReset a l).tmr = 0 := rfl
@[simp] theorem Slave.atReset_linePrev (a : BitVec 5) (l : Level) : (Slave.atReset a l).linePrev = l := rfl
@[simp] theorem Slave.atReset_rxValid (a : BitVec 5) (l : Level) : (Slave.atReset a l).rxValid = false := rfl
@[simp] theorem Slave.atReset_rxData (a : BitVec 5) (l : Level) : (Slave.atReset a l).rxData = 0 := rfl
@[simp] theorem Slave.atReset_halFail (a : BitVec 5) (l : Level) : (Slave.atReset a l).halFail = false := rfl

/-! ## The master -/

@[simp] theorem clearDone_busy (m : Master) : (clearDone m).busy = m.busy := rfl
@[simp] theorem clearDone_idx (m : Master) : (clearDone m).idx = m.idx := rfl
@[simp] theorem clearDone_t (m : Master) : (clearDone m).t = m.t := rfl
@[simp] theorem clearDone_a (m : Master) : (clearDone m).a = m.a := rfl
@[simp] theorem clearDone_d (m : Master) : (clearDone m).d = m.d := rfl
@[simp] theorem clearDone_result (m : Master) : (clearDone m).result = m.result := rfl
@[simp] theorem clearDone_done (m : Master) : (clearDone m).done = false := rfl

@[simp] theorem finish_busy (c : ResultCode) (m : Master) : (finish c m).busy = false := rfl
@[simp] theorem finish_idx (c : ResultCode) (m : Master) : (finish c m).idx = m.idx := rfl
@[simp] theorem finish_t (c : ResultCode) (m : Master) : (finish c m).t = m.t := rfl
@[simp] theorem finish_a (c : ResultCode) (m : Master) : (finish c m).a = m.a := rfl
@[simp] theorem finish_d (c : ResultCode) (m : Master) : (finish c m).d = m.d := rfl
@[simp] theorem finish_result (c : ResultCode) (m : Master) : (finish c m).result = resultBits c := rfl
@[simp] theorem finish_done (c : ResultCode) (m : Master) : (finish c m).done = true := rfl

@[simp] theorem countCycle_busy (k : Nat) (m : Master) : (countCycle k m).busy = m.busy := rfl
@[simp] theorem countCycle_idx (k : Nat) (m : Master) : (countCycle k m).idx = m.idx := rfl
@[simp] theorem countCycle_t (k : Nat) (m : Master) : (countCycle k m).t = (m.t + 1) % 2 ^ mtWidth k := rfl
@[simp] theorem countCycle_a (k : Nat) (m : Master) : (countCycle k m).a = m.a := rfl
@[simp] theorem countCycle_d (k : Nat) (m : Master) : (countCycle k m).d = m.d := rfl
@[simp] theorem countCycle_result (k : Nat) (m : Master) : (countCycle k m).result = m.result := rfl
@[simp] theorem countCycle_done (k : Nat) (m : Master) : (countCycle k m).done = m.done := rfl

@[simp] theorem Master.atReset_busy : (Master.atReset).busy = false := rfl
@[simp] theorem Master.atReset_idx : (Master.atReset).idx = 0 := rfl
@[simp] theorem Master.atReset_t : (Master.atReset).t = 0 := rfl
@[simp] theorem Master.atReset_a : (Master.atReset).a = 0 := rfl
@[simp] theorem Master.atReset_d : (Master.atReset).d = 0 := rfl
@[simp] theorem Master.atReset_result : (Master.atReset).result = 0 := rfl
@[simp] theorem Master.atReset_done : (Master.atReset).done = false := rfl

@[simp] theorem masterAtSymbol_busy (i : BitVec 4) (m : Master) : (masterAtSymbol i m).busy = true := rfl
@[simp] theorem masterAtSymbol_idx (i : BitVec 4) (m : Master) : (masterAtSymbol i m).idx = i := rfl
@[simp] theorem masterAtSymbol_t (i : BitVec 4) (m : Master) : (masterAtSymbol i m).t = 0 := rfl
@[simp] theorem masterAtSymbol_a (i : BitVec 4) (m : Master) : (masterAtSymbol i m).a = m.a := rfl
@[simp] theorem masterAtSymbol_d (i : BitVec 4) (m : Master) : (masterAtSymbol i m).d = m.d := rfl
@[simp] theorem masterAtSymbol_result (i : BitVec 4) (m : Master) : (masterAtSymbol i m).result = m.result := rfl
@[simp] theorem masterAtSymbol_done (i : BitVec 4) (m : Master) : (masterAtSymbol i m).done = m.done := rfl

/-! ## The state -/

@[simp] theorem State.onUnit_params (f : Slave → Slave) (s : State) : (s.onUnit f).params = s.params := rfl
@[simp] theorem State.onUnit_pins (f : Slave → Slave) (s : State) : (s.onUnit f).pins = s.pins := rfl
@[simp] theorem State.onUnit_stim (f : Slave → Slave) (s : State) : (s.onUnit f).stim = s.stim := rfl
@[simp] theorem State.onUnit_slot (f : Slave → Slave) (s : State) : (s.onUnit f).slot = s.slot := rfl
@[simp] theorem State.onUnit_wire (f : Slave → Slave) (s : State) : (s.onUnit f).wire = s.wire := rfl
@[simp] theorem State.onUnit_ackWire (f : Slave → Slave) (s : State) : (s.onUnit f).ackWire = s.ackWire := rfl
@[simp] theorem State.onUnit_master (f : Slave → Slave) (s : State) : (s.onUnit f).master = s.master := rfl
@[simp] theorem State.onUnit_slaves (f : Slave → Slave) (s : State) : (s.onUnit f).slaves = s.slaves.modify s.slot.unit f := rfl

@[simp] theorem State.onMaster_params (f : Master → Master) (s : State) : (s.onMaster f).params = s.params := rfl
@[simp] theorem State.onMaster_pins (f : Master → Master) (s : State) : (s.onMaster f).pins = s.pins := rfl
@[simp] theorem State.onMaster_stim (f : Master → Master) (s : State) : (s.onMaster f).stim = s.stim := rfl
@[simp] theorem State.onMaster_slot (f : Master → Master) (s : State) : (s.onMaster f).slot = s.slot := rfl
@[simp] theorem State.onMaster_wire (f : Master → Master) (s : State) : (s.onMaster f).wire = s.wire := rfl
@[simp] theorem State.onMaster_ackWire (f : Master → Master) (s : State) : (s.onMaster f).ackWire = s.ackWire := rfl
@[simp] theorem State.onMaster_master (f : Master → Master) (s : State) : (s.onMaster f).master = f s.master := rfl
@[simp] theorem State.onMaster_slaves (f : Master → Master) (s : State) : (s.onMaster f).slaves = s.slaves := rfl

@[simp] theorem State.pull_params (b : Bool) (s : State) : (s.pull b).params = s.params := rfl
@[simp] theorem State.pull_pins (b : Bool) (s : State) : (s.pull b).pins = s.pins := rfl
@[simp] theorem State.pull_stim (b : Bool) (s : State) : (s.pull b).stim = s.stim := rfl
@[simp] theorem State.pull_slot (b : Bool) (s : State) : (s.pull b).slot = s.slot := rfl
@[simp] theorem State.pull_wire (b : Bool) (s : State) : (s.pull b).wire = if b then .low else s.wire := rfl
@[simp] theorem State.pull_ackWire (b : Bool) (s : State) : (s.pull b).ackWire = s.ackWire := rfl
@[simp] theorem State.pull_master (b : Bool) (s : State) : (s.pull b).master = s.master := rfl
@[simp] theorem State.pull_slaves (b : Bool) (s : State) : (s.pull b).slaves = s.slaves := rfl

@[simp] theorem State.emit_params (x : Symbol) (s : State) : (s.emit x).params = s.params := rfl
@[simp] theorem State.emit_pins (x : Symbol) (s : State) : (s.emit x).pins = s.pins := rfl
@[simp] theorem State.emit_stim (x : Symbol) (s : State) : (s.emit x).stim = s.stim := rfl
@[simp] theorem State.emit_slot (x : Symbol) (s : State) : (s.emit x).slot = s.slot := rfl
@[simp] theorem State.emit_wire (x : Symbol) (s : State) : (s.emit x).wire = if emitsLow s.k x s.master.t then .low else s.wire := rfl
@[simp] theorem State.emit_ackWire (x : Symbol) (s : State) : (s.emit x).ackWire = s.ackWire := rfl
@[simp] theorem State.emit_master (x : Symbol) (s : State) : (s.emit x).master = s.master := rfl
@[simp] theorem State.emit_slaves (x : Symbol) (s : State) : (s.emit x).slaves = s.slaves := rfl

@[simp] theorem State.sampleAck_params (s : State) : (s.sampleAck).params = s.params := rfl
@[simp] theorem State.sampleAck_pins (s : State) : (s.sampleAck).pins = s.pins := rfl
@[simp] theorem State.sampleAck_stim (s : State) : (s.sampleAck).stim = s.stim := rfl
@[simp] theorem State.sampleAck_slot (s : State) : (s.sampleAck).slot = s.slot := rfl
@[simp] theorem State.sampleAck_wire (s : State) : (s.sampleAck).wire = s.wire := rfl
@[simp] theorem State.sampleAck_ackWire (s : State) : (s.sampleAck).ackWire = if s.master.t = cycles s.k ackqSample then some (s.busIn == .low) else none := rfl
@[simp] theorem State.sampleAck_master (s : State) : (s.sampleAck).master = s.master := rfl
@[simp] theorem State.sampleAck_slaves (s : State) : (s.sampleAck).slaves = s.slaves := rfl

@[simp] theorem State.advance_params (s : State) : (s.advance).params = s.params := rfl
@[simp] theorem State.advance_pins (s : State) : (s.advance).pins = s.pins := rfl
@[simp] theorem State.advance_stim (s : State) : (s.advance).stim = s.stim := rfl
@[simp] theorem State.advance_slot (s : State) : (s.advance).slot = s.slot.next s.slaves.length := rfl
@[simp] theorem State.advance_wire (s : State) : (s.advance).wire = s.wire := rfl
@[simp] theorem State.advance_ackWire (s : State) : (s.advance).ackWire = s.ackWire := rfl
@[simp] theorem State.advance_master (s : State) : (s.advance).master = s.master := rfl
@[simp] theorem State.advance_slaves (s : State) : (s.advance).slaves = s.slaves := rfl

@[simp] theorem State.clockEdge_params (s : State) : (s.clockEdge).params = s.params := rfl
@[simp] theorem State.clockEdge_pins (s : State) : (s.clockEdge).pins = s.stim.headD .idle := rfl
@[simp] theorem State.clockEdge_stim (s : State) : (s.clockEdge).stim = s.stim.tail := rfl
@[simp] theorem State.clockEdge_slot (s : State) : (s.clockEdge).slot = s.slot := rfl
@[simp] theorem State.clockEdge_wire (s : State) : (s.clockEdge).wire = match (s.stim.headD .idle).external with | .drivesLow => .low | .released | .forcesHigh => .high := rfl
@[simp] theorem State.clockEdge_ackWire (s : State) : (s.clockEdge).ackWire = none := rfl
@[simp] theorem State.clockEdge_master (s : State) : (s.clockEdge).master = s.master := rfl
@[simp] theorem State.clockEdge_slaves (s : State) : (s.clockEdge).slaves = s.slaves := rfl

@[simp] theorem State.onUnit_k (f : Slave → Slave) (s : State) : (s.onUnit f).k = s.k := rfl
@[simp] theorem State.onUnit_busIn (f : Slave → Slave) (s : State) : (s.onUnit f).busIn = s.busIn := rfl
@[simp] theorem State.onUnit_unitPins (f : Slave → Slave) (s : State) : (s.onUnit f).unitPins = s.unitPins := rfl
@[simp] theorem State.onMaster_k (f : Master → Master) (s : State) : (s.onMaster f).k = s.k := rfl
@[simp] theorem State.onMaster_busIn (f : Master → Master) (s : State) : (s.onMaster f).busIn = s.busIn := rfl
@[simp] theorem State.onMaster_unitPins (f : Master → Master) (s : State) : (s.onMaster f).unitPins = s.unitPins := rfl
@[simp] theorem State.advance_k (s : State) : s.advance.k = s.k := rfl
@[simp] theorem State.advance_busIn (s : State) : s.advance.busIn = s.busIn := rfl

end Sys2Proof.Machine
end

