-- ==== Sys2Proof/Laws/Ops.lean ====
section
/-! SUPPORT. For each shared operation, one lemma that says all it can do. -/

namespace Sys2Proof.Machine

/-! ## Parameters and widths -/

theorem Params.k_pos (p : Params) : 0 < p.k := Nat.succ_pos _

theorem State.k_pos (s : State) : 0 < s.k := s.params.k_pos

/-- `clog2(x)` bits hold every number below `x`. -/
theorem le_two_pow_clog2 (x : Nat) : x ≤ 2 ^ clog2 x := by
  unfold clog2
  split
  · simpa
  · have := Nat.lt_log2_self (n := x - 1)
    omega

/-- Below the end of the longest symbol the counter of cycles does not wrap. -/
theorem countCycle_of_lt {k : Nat} {m : Master} (h : m.t + 1 < 20 * k) :
    countCycle k m = { m with t := m.t + 1 } := by
  have hw : 20 * k ≤ 2 ^ mtWidth k := le_two_pow_clog2 _
  simp only [countCycle, Nat.mod_eq_of_lt (Nat.lt_of_lt_of_le h hw)]

/-! ## Slaves of the state -/

/-- What one unit's operation makes of each slave. -/
theorem State.onUnit_getElem? (f : Slave → Slave) (s : State) (j : Nat) :
    (s.onUnit f).slaves[j]? = if s.slot.unit = j then s.slaves[j]?.map f else s.slaves[j]? := by
  simp only [State.onUnit_slaves, List.getElem?_modify]
  cases s.slaves[j]? <;> split <;> simp

theorem State.onUnit_length (f : Slave → Slave) (s : State) :
    (s.onUnit f).slaves.length = s.slaves.length := by simp

/-- A row that drives or releases does its work, or is replaced by the reset of a driver failure. -/
theorem withDriver_cases (b : Bool) (row : Slave → Slave) (v : Slave) :
    (b = false ∧ withDriver b row v = row v) ∨
      (b = true ∧ withDriver b row v = { resetToIdle .v9 v with halFail := true }) := by
  cases b <;> simp [withDriver]

/-! ## Bits of the accumulators -/

/-- The bit at an index in range is set and no other changes. -/
theorem setAddressBit_getLsbD (acc : BitVec 5) (i : BitVec 3) (h : i.toNat < 5) (n : Nat) :
    (setAddressBit acc i).getLsbD n = (acc.getLsbD n || decide (n = i.toNat)) := by
  simp only [setAddressBit, Config.addressN, h, if_true, BitVec.getLsbD_or, BitVec.getLsbD_shiftLeft,
    BitVec.getLsbD_one]
  by_cases hn : n = i.toNat
  · subst hn; simp [h]
  · have : ¬ (n < 5 ∧ ¬ n < i.toNat ∧ n - i.toNat = 0) := by omega
    simp only [hn, decide_false, Bool.or_false]
    by_cases h5 : n < 5 <;> by_cases hi : n < i.toNat <;> simp_all

/-- The one bit of the data accumulator is set. -/
theorem setDataBit_zero (acc : BitVec 1) : setDataBit acc 0 = 1 := by
  revert acc; decide

/-! ## The flags of the select vectors -/

theorem fieldComplete_receivingAddress {v : Slave} (h : v.phase = .receivingAddress) :
    fieldComplete v = decide (v.currentBit = 5) := by
  simp only [fieldComplete, h, fieldWidth, Config.addressN]
  generalize v.currentBit = c
  revert c; decide

theorem fieldComplete_receivingData {v : Slave} (h : v.phase = .receivingData) :
    fieldComplete v = decide (v.currentBit = 1) := by
  simp only [fieldComplete, h, fieldWidth, Config.dataN]
  generalize v.currentBit = c
  revert c; decide

theorem fieldComplete_idle {v : Slave} (h : v.phase = .idle) : fieldComplete v = false := by
  simp [fieldComplete, h, fieldWidth]

theorem fieldComplete_done {v : Slave} (h : v.phase = .done) : fieldComplete v = false := by
  simp [fieldComplete, h, fieldWidth]

/-- A request is in range exactly when both values are (41_master_transmitter.md R131). -/
theorem requestValid_iff (p : Pins) :
    requestValid p = true ↔ p.mAddr.toNat < 32 ∧ p.mData.toNat < 2 := by
  simp [requestValid, Config.addressN, Config.dataN]

theorem samplePoint_iff (k : Nat) (m : Master) :
    samplePoint k m = true ↔ (m.idx.toNat = 6 ∨ m.idx.toNat = 8) ∧ m.t = 5 * k := by
  simp [samplePoint, idxQa, idxQd, cycles, ackqSample, Config.addressN, Config.dataN]

theorem endOfSymbol_iff (k : Nat) (m : Master) :
    endOfSymbol k m = true ↔ m.t = totLen (symbolAt m) * k - 1 := by
  simp [endOfSymbol, cycles]

theorem lastSymbol_iff (m : Master) : lastSymbol m = true ↔ m.idx.toNat = 8 := by
  simp [lastSymbol, idxQd, Config.addressN, Config.dataN]

/-! ## The line -/

/-- What a unit reads when no external driver forces the line High. -/
theorem State.busIn_of_not_forced {s : State} (h : s.pins.external ≠ .forcesHigh) :
    s.busIn = s.wire := by
  unfold State.busIn
  split
  · exact absurd ‹_› h
  · rfl
  · rfl

theorem State.busIn_of_forced {s : State} (h : s.pins.external = .forcesHigh) : s.busIn = .high := by
  simp [State.busIn, h]

end Sys2Proof.Machine
end

