-- ==== Sys2Proof/Laws/PerInstr.lean ====
section
/-! SUPPORT. Facts said of each instruction by itself. -/

namespace Sys2Proof.Laws

/-- An instruction's encoding is laid out soundly: a symbol's string is well formed, and a pattern has no
bit outside its mask (30_encoding.md R80, R90, R91). -/
def Layout.Statement (i : Instr) : Prop :=
  match encoding i with
  | .symbol units sample => (Word.symbol units sample).wf = true
  | .msv p m => p &&& m = p
  | .tsv p m => p &&& m = p

theorem Layout.start : Layout.Statement .start := rfl
theorem Layout.bit1 : Layout.Statement .bit1 := rfl
theorem Layout.bit0 : Layout.Statement .bit0 := rfl
theorem Layout.ackq : Layout.Statement .ackq := rfl
theorem Layout.ackr : Layout.Statement .ackr := rfl
theorem Layout.mIdleWait : Layout.Statement .mIdleWait := rfl
theorem Layout.mAccept : Layout.Statement .mAccept := rfl
theorem Layout.mReject : Layout.Statement .mReject := rfl
theorem Layout.mHalFail : Layout.Statement .mHalFail := rfl
theorem Layout.mAckNack : Layout.Statement .mAckNack := rfl
theorem Layout.mAckSeen : Layout.Statement .mAckSeen := rfl
theorem Layout.mHold : Layout.Statement .mHold := rfl
theorem Layout.mNextSymbol : Layout.Statement .mNextSymbol := rfl
theorem Layout.mFinishOk : Layout.Statement .mFinishOk := rfl
theorem Layout.lvlIgnoreRise : Layout.Statement .lvlIgnoreRise := rfl
theorem Layout.idleStartArm : Layout.Statement .idleStartArm := rfl
theorem Layout.idleLowWaiting : Layout.Statement .idleLowWaiting := rfl
theorem Layout.idleStartOk : Layout.Statement .idleStartOk := rfl
theorem Layout.idleStartMalformed : Layout.Statement .idleStartMalformed := rfl
theorem Layout.idleStartShort : Layout.Statement .idleStartShort := rfl
theorem Layout.rxBitArmA : Layout.Statement .rxBitArmA := rfl
theorem Layout.rxLowWaitingA : Layout.Statement .rxLowWaitingA := rfl
theorem Layout.raAddrAck : Layout.Statement .raAddrAck := rfl
theorem Layout.raAddrMismatch : Layout.Statement .raAddrMismatch := rfl
theorem Layout.rxHighFieldFullA : Layout.Statement .rxHighFieldFullA := rfl
theorem Layout.rxBitOneA : Layout.Statement .rxBitOneA := rfl
theorem Layout.rxBitOneBadA : Layout.Statement .rxBitOneBadA := rfl
theorem Layout.rxBitZeroA : Layout.Statement .rxBitZeroA := rfl
theorem Layout.rxBitArmD : Layout.Statement .rxBitArmD := rfl
theorem Layout.rxLowWaitingD : Layout.Statement .rxLowWaitingD := rfl
theorem Layout.rdDataAck : Layout.Statement .rdDataAck := rfl
theorem Layout.rxHighFieldFullD : Layout.Statement .rxHighFieldFullD := rfl
theorem Layout.rxBitOneD : Layout.Statement .rxBitOneD := rfl
theorem Layout.rxBitOneBadD : Layout.Statement .rxBitOneBadD := rfl
theorem Layout.rxBitZeroD : Layout.Statement .rxBitZeroD := rfl
theorem Layout.doneEventL : Layout.Statement .doneEventL := rfl
theorem Layout.doneEventH : Layout.Statement .doneEventH := rfl
theorem Layout.tmrPlainI : Layout.Statement .tmrPlainI := rfl
theorem Layout.tmrPlainA : Layout.Statement .tmrPlainA := rfl
theorem Layout.tmrPlainD : Layout.Statement .tmrPlainD := rfl
theorem Layout.tmrAddrAckEnd : Layout.Statement .tmrAddrAckEnd := rfl
theorem Layout.tmrDataAckEnd : Layout.Statement .tmrDataAckEnd := rfl
theorem Layout.tmrStrayAckI : Layout.Statement .tmrStrayAckI := rfl
theorem Layout.tmrStrayAckA : Layout.Statement .tmrStrayAckA := rfl

end Sys2Proof.Laws
end

