-- ==== Sys2Proof/Laws/Step.lean ====
section
/-! SUPPORT. What a step can do, said once. -/

namespace Sys2Proof.Machine

/-- Every instruction answers a next state. -/
theorem exec_next (i : Instr) (s : State) : ∃ t, exec i s = .next t := by
  cases i <;> exact ⟨_, rfl⟩

/-- What a step that answers a next state has done: a turn without a row, or one row's instruction between
the turn's own writes and the passing on of the turn. -/
theorem step_next_cases {s t : State} (h : step s = .next t) :
    (s.fetch = none ∧ t = s.prepare.advance) ∨
      ∃ w i u, s.fetch = some w ∧ decode w = .ok i ∧ exec i s.prepare = .next u ∧ t = u.advance := by
  unfold step at h
  split at h
  · rename_i hf
    exact .inl ⟨hf, by simpa using h.symm⟩
  · rename_i w hf
    split at h
    · rename_i i hd
      obtain ⟨u, hu⟩ := exec_next i s.prepare
      exact .inr ⟨w, i, u, hf, hd, hu, by simpa [hu, mapNext] using h.symm⟩
    · exact absurd h (by simp)

/-- A turn without a row. -/
theorem step_of_fetch_none {s : State} (h : s.fetch = none) : step s = .next s.prepare.advance := by
  simp [step, h]

/-- A turn whose word decodes, by what the instruction answers. -/
theorem step_of_fetch {s u : State} {w : Word} {i : Instr} (hf : s.fetch = some w)
    (hd : decode w = .ok i) (hu : exec i s.prepare = .next u) : step s = .next u.advance := by
  simp [step, hf, hd, hu, mapNext]

end Sys2Proof.Machine
end

