-- ==== Sys2Proof/Tests/Slice0.lean ====
section
/-! SUPPORT. Tests. Words and expected results are those of 95_test_vectors.md (the vector is named), or are
computed by hand from the rule named. At the end, for every statement with hypotheses, a state and
operands that meet them. -/

open Sys2Proof Sys2Proof.Machine

/-! ## Ill-formed words are refused -/

/-- A string that begins High is no symbol's (R80). -/
theorem test_wf_high_first : (Word.symbol [.high, .low] none).wf = false := by decide
/-- A second Low phase (R80). -/
theorem test_wf_two_lows : (Word.symbol [.low, .high, .low] none).wf = false := by decide
/-- No unit at all. -/
theorem test_wf_empty : (Word.symbol [] none).wf = false := by decide
/-- A sample behind the last unit. -/
theorem test_wf_sample_outside : (Word.symbol [.low, .high] (some 2)).wf = false := by decide
/-- A sample in a string that is ill formed itself. -/
theorem test_wf_sample_bad_string : (Word.symbol [.high, .low] (some 0)).wf = false := by decide
/-- The ack query's string and sample pass. -/
theorem test_wf_ackq : (Word.symbol (unitString 2 8) (some 5)).wf = true := by decide
/-- A well-formed string that is no symbol's is refused by name: nine Low units. -/
theorem test_decode_no_such_symbol :
    (match decode (.symbol (unitString 9 1) none) with | .error .noSuchSymbol => true | _ => false) = true := by
  decide

/-! ## Decoding: every row from a word written out from its encoding -/

/-- A word decodes to an instruction. -/
def decodesTo (w : Word) (i : Instr) : Bool :=
  match decode w with
  | .ok j => j == i
  | .error _ => false

/-- A unit string from its digits. -/
def units (l : List Nat) : List Level := l.map fun d => if d = 0 then .low else .high

/-- R112 -/
theorem test_decode_start :
    decodesTo (.symbol (units [0, 0, 0, 0, 0, 0, 0, 0, 0, 0, 0, 0, 0, 0, 0, 0, 0, 0, 1, 1]) none) .start = true := by
  decide
/-- R113 -/
theorem test_decode_bit1 :
    decodesTo (.symbol (units [0, 0, 0, 0, 0, 0, 0, 0, 1, 1]) none) .bit1 = true := by
  decide
/-- R114 -/
theorem test_decode_bit0 :
    decodesTo (.symbol (units [0, 0, 1, 1, 1, 1, 1, 1, 1, 1]) none) .bit0 = true := by
  decide
/-- R115 -/
theorem test_decode_ackq :
    decodesTo (.symbol (units [0, 0, 1, 1, 1, 1, 1, 1, 1, 1]) (some 5)) .ackq = true := by
  decide
/-- R116 -/
theorem test_decode_ackr :
    decodesTo (.symbol (units [0, 0, 0, 0, 0, 0, 0, 0]) none) .ackr = true := by
  decide
/-- VE31 -/
theorem test_decode_mIdleWait :
    [0b00100111#8, 0b00100100#8, 0b00101100#8].all (fun x => decodesTo (.msv x) .mIdleWait) = true := by decide
/-- VE32 -/
theorem test_decode_mAccept : decodesTo (.msv 0b01100100#8) .mAccept = true := by decide
/-- VE33 -/
theorem test_decode_mReject : decodesTo (.msv 0b01000100#8) .mReject = true := by decide
/-- VE34 -/
theorem test_decode_mHalFail : decodesTo (.msv 0b10110000#8) .mHalFail = true := by decide
/-- VE35 -/
theorem test_decode_mAckNack :
    [0b10101100#8, 0b10101101#8].all (fun x => decodesTo (.msv x) .mAckNack) = true := by decide
/-- VE36 -/
theorem test_decode_mAckSeen :
    [0b10101000#8, 0b10101001#8].all (fun x => decodesTo (.msv x) .mAckSeen) = true := by decide
/-- VE37 -/
theorem test_decode_mHold : decodesTo (.msv 0b10100000#8) .mHold = true := by decide
/-- VE38 -/
theorem test_decode_mNextSymbol : decodesTo (.msv 0b10100110#8) .mNextSymbol = true := by decide
/-- VE39 -/
theorem test_decode_mFinishOk : decodesTo (.msv 0b10100111#8) .mFinishOk = true := by decide
/-- VE23 -/
theorem test_decode_lvlIgnoreRise : decodesTo (.tsv 0b0100100110#10) .lvlIgnoreRise = true := by decide
/-- VE1 -/
theorem test_decode_idleStartArm : decodesTo (.tsv 0b0001000000#10) .idleStartArm = true := by decide
/-- VE2 -/
theorem test_decode_idleLowWaiting : decodesTo (.tsv 0b0011000000#10) .idleLowWaiting = true := by decide
/-- VE3 -/
theorem test_decode_idleStartOk : decodesTo (.tsv 0b0100000000#10) .idleStartOk = true := by decide
/-- VE4 -/
theorem test_decode_idleStartMalformed : decodesTo (.tsv 0b0101000000#10) .idleStartMalformed = true := by decide
/-- VE5 -/
theorem test_decode_idleStartShort : decodesTo (.tsv 0b0111000000#10) .idleStartShort = true := by decide
/-- VE6 -/
theorem test_decode_rxBitArmA :
    [0b0000010000#10, 0b0001010000#10, 0b0000010100#10].all (fun x => decodesTo (.tsv x) .rxBitArmA) = true := by decide
/-- VE7 -/
theorem test_decode_rxLowWaitingA : decodesTo (.tsv 0b0010010000#10) .rxLowWaitingA = true := by decide
/-- VE8 -/
theorem test_decode_raAddrAck : decodesTo (.tsv 0b0001011100#10) .raAddrAck = true := by decide
/-- VE9 -/
theorem test_decode_raAddrMismatch : decodesTo (.tsv 0b0001011000#10) .raAddrMismatch = true := by decide
/-- VE10 -/
theorem test_decode_rxHighFieldFullA : decodesTo (.tsv 0b0100011100#10) .rxHighFieldFullA = true := by decide
/-- VE11 -/
theorem test_decode_rxBitOneA : decodesTo (.tsv 0b0100010000#10) .rxBitOneA = true := by decide
/-- VE12 -/
theorem test_decode_rxBitOneBadA : decodesTo (.tsv 0b0101010000#10) .rxBitOneBadA = true := by decide
/-- VE13 -/
theorem test_decode_rxBitZeroA :
    [0b0110010000#10, 0b0110010100#10].all (fun x => decodesTo (.tsv x) .rxBitZeroA) = true := by decide
/-- VE14 -/
theorem test_decode_rxBitArmD : decodesTo (.tsv 0b0000100100#10) .rxBitArmD = true := by decide
/-- VE15 -/
theorem test_decode_rxLowWaitingD : decodesTo (.tsv 0b0010100100#10) .rxLowWaitingD = true := by decide
/-- VE16 -/
theorem test_decode_rdDataAck : decodesTo (.tsv 0b0000101100#10) .rdDataAck = true := by decide
/-- VE17 -/
theorem test_decode_rxHighFieldFullD : decodesTo (.tsv 0b0100101100#10) .rxHighFieldFullD = true := by decide
/-- VE18 -/
theorem test_decode_rxBitOneD : decodesTo (.tsv 0b0100100100#10) .rxBitOneD = true := by decide
/-- VE19 -/
theorem test_decode_rxBitOneBadD : decodesTo (.tsv 0b0101100000#10) .rxBitOneBadD = true := by decide
/-- VE20 -/
theorem test_decode_rxBitZeroD : decodesTo (.tsv 0b0110100100#10) .rxBitZeroD = true := by decide
/-- VE21 -/
theorem test_decode_doneEventL : decodesTo (.tsv 0b0010110101#10) .doneEventL = true := by decide
/-- VE22 -/
theorem test_decode_doneEventH : decodesTo (.tsv 0b0110110101#10) .doneEventH = true := by decide
/-- VE24 -/
theorem test_decode_tmrPlainI :
    [0b1011000000#10, 0b1101000000#10, 0b1001000000#10].all (fun x => decodesTo (.tsv x) .tmrPlainI) = true := by decide
/-- VE25 -/
theorem test_decode_tmrPlainA :
    [0b1010010000#10, 0b1110010000#10, 0b1011010000#10, 0b1110011100#10, 0b1110011000#10].all (fun x => decodesTo (.tsv x) .tmrPlainA) = true := by decide
/-- VE26 -/
theorem test_decode_tmrPlainD :
    [0b1010100100#10, 0b1110100100#10].all (fun x => decodesTo (.tsv x) .tmrPlainD) = true := by decide
/-- VE27 -/
theorem test_decode_tmrAddrAckEnd : decodesTo (.tsv 0b1011100101#10) .tmrAddrAckEnd = true := by decide
/-- VE28 -/
theorem test_decode_tmrDataAckEnd : decodesTo (.tsv 0b1010110101#10) .tmrDataAckEnd = true := by decide
/-- VE29 -/
theorem test_decode_tmrStrayAckI : decodesTo (.tsv 0b1111000001#10) .tmrStrayAckI = true := by decide
/-- VE30 -/
theorem test_decode_tmrStrayAckA : decodesTo (.tsv 0b1111010001#10) .tmrStrayAckA = true := by decide
/-- The table's numbering: one byte is an MSV, two bytes a TSV, three bytes START's string, and a byte of
zeros the string of ACKR (log 7). -/
theorem test_table_words :
    [decodeTableWord 8 0x64, decodeTableWord 16 0x2B5, decodeTableWord 24 0x3, decodeTableWord 8 0,
      decodeTableWord 24 0x1, decodeTableWord 32 0] =
      [some .mAccept, some .tmrDataAckEnd, some .start, some .ackr, none, none] := by decide

/-! ## One step of a slave -/

/-- A slave of address 11 as the vectors write it, with its `line_prev`. -/
def slaveOf (phase : Phase) (aacc : BitVec 5) (dacc : BitVec 1) (cb : BitVec 3) (aw ak : Bool) (ls : Level)
    (ir : Bool) (tmr : Nat) (linePrev : Level) : Slave :=
  { ownAddress := 11, phase := phase, addressAccum := aacc, dataAccum := dacc, currentBit := cb,
    awaitingTimer := aw, acking := ak, lastSampled := ls, ignoreRise := ir, tmr := tmr, linePrev := linePrev,
    rxValid := false, rxData := 0, halFail := false }

/-- A system of one slave, at a turn, with a line. -/
def atTurn (slot : Slot) (line : Level) (drvFault : Bool) (v : Slave) : State :=
  { State.reset with
    slot := slot, wire := line, slaves := [v], pins := { Pins.idle with slaves := [⟨false, drvFault, 0⟩] } }

/-- The slave after one step. -/
def slaveAfter (s : State) : Option Slave :=
  match step s with
  | .next t => t.slaves[0]?
  | .fault _ => none
  | .refused _ => none

/-- The slave after its level turn; the countdown stands as its timer turn of the same cycle left it. -/
def levelStep (line : Level) (v : Slave) : Option Slave := slaveAfter (atTurn (.level 0) line false v)

/-- The slave after its timer turn. -/
def timerStep (line : Level) (v : Slave) : Option Slave := slaveAfter (atTurn (.timer 0) line false v)

/-- VS12 -/
theorem test_lvlIgnoreRise :
    levelStep .high (slaveOf .receivingData 11 0 0 false false .low true 0 .low) =
      some (slaveOf .receivingData 11 0 0 false false .low false 0 .high) := by decide
/-- VS1 -/
theorem test_idleStartArm :
    levelStep .low (slaveOf .idle 0 0 0 false false .high false 0 .high) =
      some (slaveOf .idle 0 0 0 true false .high false 15 .low) := by decide
/-- VS29 -/
theorem test_idleLowWaiting :
    levelStep .low (slaveOf .idle 0 0 0 true false .high false 4 .high) =
      some (slaveOf .idle 0 0 0 false false .high false 4 .low) := by decide
/-- VS3 -/
theorem test_idleStartOk :
    levelStep .high (slaveOf .idle 0 0 0 false false .low false 0 .low) =
      some (slaveOf .receivingAddress 0 0 0 false false .low false 0 .high) := by decide
/-- VS18 -/
theorem test_idleStartMalformed :
    levelStep .high (slaveOf .idle 0 0 0 false false .high false 0 .low) =
      some (slaveOf .idle 0 0 0 false false .high false 0 .high) := by decide
/-- VS19 -/
theorem test_idleStartShort :
    levelStep .high (slaveOf .idle 0 0 0 true false .high false 12 .low) =
      some (slaveOf .idle 0 0 0 false false .high false 12 .high) := by decide
/-- VS4 -/
theorem test_rxBitArmA :
    levelStep .low (slaveOf .receivingAddress 0 0 0 false false .low false 0 .high) =
      some (slaveOf .receivingAddress 0 0 0 true false .low false 5 .low) := by decide
/-- VS22 -/
theorem test_rxLowWaitingA :
    levelStep .low (slaveOf .receivingAddress 0 0 1 true false .low false 2 .high) =
      some (slaveOf .idle 0 0 0 false false .high false 2 .low) := by decide
/-- VS10 -/
theorem test_raAddrAck :
    levelStep .low (slaveOf .receivingAddress 11 0 5 false false .high false 0 .high) =
      some (slaveOf .receivingData 11 0 0 true true .high false 8 .low) := by decide
/-- VS25 -/
theorem test_raAddrMismatch :
    levelStep .low (slaveOf .receivingAddress 12 0 5 false false .high false 0 .high) =
      some (slaveOf .idle 0 0 0 false false .high false 0 .low) := by decide
/-- VS30 -/
theorem test_rxHighFieldFullA :
    levelStep .high (slaveOf .receivingAddress 11 0 5 false false .low false 0 .low) =
      some (slaveOf .idle 0 0 0 false false .high false 0 .high) := by decide
/-- VS6 -/
theorem test_rxBitOneA :
    levelStep .high (slaveOf .receivingAddress 0 0 0 false false .low false 0 .low) =
      some (slaveOf .receivingAddress 1 0 1 false false .low false 0 .high) := by decide
/-- VS26 -/
theorem test_rxBitOneBadA :
    levelStep .high (slaveOf .receivingAddress 0 0 0 false false .high false 0 .low) =
      some (slaveOf .idle 0 0 0 false false .high false 0 .high) := by decide
/-- VS7 -/
theorem test_rxBitZeroA :
    levelStep .high (slaveOf .receivingAddress 3 0 2 true false .low false 3 .low) =
      some (slaveOf .receivingAddress 3 0 3 true false .low false 3 .high) := by decide
/-- VS13 -/
theorem test_rxBitArmD :
    levelStep .low (slaveOf .receivingData 11 0 0 false false .low false 0 .high) =
      some (slaveOf .receivingData 11 0 0 true false .low false 5 .low) := by decide
/-- VS33 -/
theorem test_rxLowWaitingD :
    levelStep .low (slaveOf .receivingData 11 0 0 true false .low false 2 .high) =
      some (slaveOf .idle 0 0 0 false false .high false 2 .low) := by decide
/-- VS16 -/
theorem test_rdDataAck :
    levelStep .low (slaveOf .receivingData 11 1 1 false false .low false 0 .high) =
      some (slaveOf .done 11 1 1 true true .low false 8 .low) := by decide
/-- VS31 -/
theorem test_rxHighFieldFullD :
    levelStep .high (slaveOf .receivingData 11 0 1 false false .low false 0 .low) =
      some (slaveOf .idle 0 0 0 false false .high false 0 .high) := by decide
/-- VS15 -/
theorem test_rxBitOneD :
    levelStep .high (slaveOf .receivingData 11 0 0 false false .low false 0 .low) =
      some (slaveOf .receivingData 11 1 1 false false .low false 0 .high) := by decide
/-- VS34 -/
theorem test_rxBitOneBadD :
    levelStep .high (slaveOf .receivingData 11 0 0 false false .high false 0 .low) =
      some (slaveOf .idle 0 0 0 false false .high false 0 .high) := by decide
/-- VS21 -/
theorem test_rxBitZeroD :
    levelStep .high (slaveOf .receivingData 11 0 0 true false .low false 3 .low) =
      some (slaveOf .receivingData 11 0 1 true false .low false 3 .high) := by decide
/-- VS32 -/
theorem test_doneEventL :
    levelStep .low (slaveOf .done 11 0 1 true true .low false 3 .high) =
      some (slaveOf .idle 0 0 0 false false .high false 3 .low) := by decide
/-- VS28 -/
theorem test_doneEventH :
    levelStep .high (slaveOf .done 11 1 1 true true .low false 4 .low) =
      some (slaveOf .idle 0 0 0 false false .high false 4 .high) := by decide
/-- A bit is set by its place and no other bit of the accumulator (R178, by hand): bit 3 of 00011. -/
theorem test_rxBitOneA_places :
    levelStep .high (slaveOf .receivingAddress 3 0 3 false false .low false 0 .low) =
      some (slaveOf .receivingAddress 11 0 4 false false .low false 0 .high) := by decide
/-- VS27: a driver failure at the address Ack -/
theorem test_raAddrAck_fault :
    slaveAfter (atTurn (.level 0) .low true (slaveOf .receivingAddress 11 0 5 false false .high false 0 .high)) =
      some { slaveOf .idle 0 0 0 false false .high false 0 .low with halFail := true } := by decide
/-- VM8 @91: a driver failure at the data Ack -/
theorem test_rdDataAck_fault :
    slaveAfter (atTurn (.level 0) .low true (slaveOf .receivingData 11 1 1 false false .low false 0 .high)) =
      some { slaveOf .idle 0 0 0 false false .high false 0 .low with halFail := true } := by decide

/-- VS2 -/
theorem test_tmrPlainI :
    timerStep .low (slaveOf .idle 0 0 0 true false .high false 1 .low) =
      some (slaveOf .idle 0 0 0 false false .low false 0 .low) := by decide
/-- VS8 -/
theorem test_tmrPlainA :
    timerStep .high (slaveOf .receivingAddress 3 0 3 true false .low false 1 .high) =
      some (slaveOf .receivingAddress 3 0 3 false false .high false 0 .high) := by decide
/-- VS14 -/
theorem test_tmrPlainD :
    timerStep .low (slaveOf .receivingData 11 0 0 true false .low false 1 .low) =
      some (slaveOf .receivingData 11 0 0 false false .low false 0 .low) := by decide
/-- VS11 -/
theorem test_tmrAddrAckEnd :
    timerStep .low (slaveOf .receivingData 11 0 0 true true .high false 1 .low) =
      some (slaveOf .receivingData 11 0 0 false false .low true 0 .low) := by decide
/-- VS35 -/
theorem test_tmrStrayAckI :
    timerStep .high (slaveOf .idle 0 0 0 true true .high false 1 .high) =
      some (slaveOf .idle 0 0 0 false false .high false 0 .high) := by decide
/-- VS36 -/
theorem test_tmrStrayAckA :
    timerStep .high (slaveOf .receivingAddress 0 0 0 true true .high false 1 .high) =
      some (slaveOf .receivingAddress 0 0 0 false false .high false 0 .high) := by decide
/-- VS17 -/
theorem test_tmrDataAckEnd :
    timerStep .low (slaveOf .done 11 1 1 true true .low false 1 .low) =
      some { slaveOf .idle 0 0 0 false false .high false 0 .low with rxValid := true, rxData := 1 } := by decide
/-- R187: a driver failure in Done delivers nothing -/
theorem test_tmrDataAckEnd_fault :
    slaveAfter (atTurn (.timer 0) .low true (slaveOf .done 11 1 1 true true .low false 1 .low)) =
      some { slaveOf .idle 0 0 0 false false .high false 0 .low with halFail := true } := by decide
/-- R160: a cycle without an expiry counts down and clears the pulses. -/
theorem test_countdown :
    timerStep .low { slaveOf .idle 0 0 0 true false .high false 5 .low with rxValid := true, halFail := true } =
      some (slaveOf .idle 0 0 0 true false .high false 4 .low) := by decide
/-- R162: no edge, no row. -/
theorem test_no_edge :
    levelStep .low (slaveOf .idle 0 0 0 true false .high false 5 .low) =
      some (slaveOf .idle 0 0 0 true false .high false 5 .low) := by decide

/-! ## One step of the master -/

/-- A master in its turn. -/
def masterTurn (pins : Pins) (line : Level) (m : Master) : State :=
  { State.reset with slot := .masterRow, wire := line, pins := pins, master := m }

/-- The master after one step. -/
def masterAfter (s : State) : Option Master :=
  match step s with
  | .next t => some t.master
  | .fault _ => none
  | .refused _ => none

/-- The master of the frame of VM2 at an index and an offset. -/
def sending (idx : BitVec 4) (t : Nat) : Master := ⟨true, idx, t, 0x0b, 1, 0, false⟩

/-- The ports of a request. -/
def request (a d : BitVec 32) : Pins := { Pins.idle with mStart := true, mAddr := a, mData := d }

/-- VM1: `m_result` stays -/
theorem test_mIdleWait :
    masterAfter (masterTurn .idle .high ⟨false, 8, 9, 3, 1, 2, true⟩) = some ⟨false, 8, 9, 3, 1, 2, false⟩ := by decide
/-- VM2 -/
theorem test_mAccept :
    masterAfter (masterTurn (request 0x0b 1) .high Master.atReset) = some ⟨true, 0, 0, 0x0b, 1, 0, false⟩ := by decide
/-- VM9 -/
theorem test_mReject :
    masterAfter (masterTurn (request 32 0) .high ⟨false, 8, 9, 3, 1, 0, false⟩) = some ⟨false, 8, 9, 3, 1, 4, true⟩ := by decide
/-- VM13 -/
theorem test_mHalFail :
    masterAfter (masterTurn { Pins.idle with mDrvFault := true } .low (sending 0 9)) = some ⟨false, 0, 9, 0x0b, 1, 3, true⟩ := by decide
/-- VM7 -/
theorem test_mAckNack :
    masterAfter (masterTurn .idle .high (sending 6 5)) = some ⟨false, 6, 5, 0x0b, 1, 1, true⟩ := by decide
/-- VM8 -/
theorem test_mAckNack_data :
    masterAfter (masterTurn .idle .high (sending 8 5)) = some ⟨false, 8, 5, 0x0b, 1, 2, true⟩ := by decide
/-- VM5 -/
theorem test_mAckSeen :
    masterAfter (masterTurn .idle .low (sending 8 5)) = some (sending 8 6) := by decide
/-- VM3 -/
theorem test_mHold :
    masterAfter (masterTurn .idle .low (sending 0 0)) = some (sending 0 1) := by decide
/-- VM4 -/
theorem test_mNextSymbol :
    masterAfter (masterTurn .idle .high (sending 0 19)) = some (sending 1 0) := by decide
/-- VM6 -/
theorem test_mFinishOk :
    masterAfter (masterTurn .idle .high (sending 8 9)) = some ⟨false, 8, 9, 0x0b, 1, 0, true⟩ := by decide
/-- VM15: the failure comes before the sample -/
theorem test_mHalFail_first :
    masterAfter (masterTurn { Pins.idle with mDrvFault := true } .low (sending 6 5)) = some ⟨false, 6, 5, 0x0b, 1, 3, true⟩ := by decide
/-- VM12 -/
theorem test_mAccept_ones :
    masterAfter (masterTurn (request 31 1) .high Master.atReset) = some ⟨true, 0, 0, 31, 1, 0, false⟩ := by decide
/-- VM10 -/
theorem test_mReject_data :
    masterAfter (masterTurn (request 0 2) .high Master.atReset) = some ⟨false, 0, 0, 0, 0, 4, true⟩ := by decide

/-! ## One step of a driver -/

/-- The line and `ack` after one step. -/
def lineAfter (s : State) : Option (Level × Option Bool) :=
  match step s with
  | .next t => some (t.wire, t.ackWire)
  | .fault _ => none
  | .refused _ => none

/-- A master in its drive turn on a line that is otherwise High. -/
def driving (k : Nat) (m : Master) : State :=
  { State.reset with params := ⟨k - 1⟩, slot := .symbolDrive, master := m }

/-- VC2 -/
theorem test_start :
    [0, 17, 18, 19].map (fun t => lineAfter (driving 1 (sending 0 t))) =
      [some (.low, none), some (.low, none), some (.high, none), some (.high, none)] := by decide
/-- R113: address bit 0 of 0x0b is 1. -/
theorem test_bit1 :
    [7, 8].map (fun t => lineAfter (driving 1 (sending 1 t))) = [some (.low, none), some (.high, none)] := by
  decide
/-- VC3: address bit 2 of 0x0b is 0. -/
theorem test_bit0 :
    [0, 3, 4, 19].map (fun t => lineAfter (driving 2 (sending 3 t))) =
      [some (.low, none), some (.low, none), some (.high, none), some (.high, none)] := by decide
/-- VC4: the sample at K = 3 is at offset 15. -/
theorem test_ackq :
    [5, 6, 14, 15, 16].map (fun t => lineAfter (driving 3 (sending 6 t))) =
      [some (.low, none), some (.high, none), some (.high, none), some (.high, some false),
        some (.high, none)] := by decide
/-- R116 -/
theorem test_ackr :
    [true, false].map (fun ak => lineAfter (atTurn (.ackDrive 0) .high false
      (slaveOf .done 11 1 1 true ak .low false 4 .low))) = [some (.low, none), some (.high, none)] := by decide

/-! ## Reset -/

/-- VR2, VR4: a busy master and a slave with a countdown, both in reset. -/
theorem test_reset_units :
    masterAfter (masterTurn { Pins.idle with mRst := true } .low (sending 3 4)) = some Master.atReset ∧
      slaveAfter { atTurn (.timer 0) .low false (slaveOf .idle 0 0 0 true false .high false 1 .high) with
        pins := { Pins.idle with slaves := [⟨true, false, 9⟩] } } = some (Slave.atReset 9 .low) := by decide
/-- VR1: after reset the line is High and nothing is driven. -/
theorem test_reset_line : State.reset.busIn = .high ∧ State.reset.fetch = none := by decide

/-! ## Witnesses: for every statement with hypotheses, values that meet them together -/

/-- A slave with the registers of VS10's pre-state, which acknowledges at the next fall. -/
def fullAddress : Slave := slaveOf .receivingAddress 11 0 5 false false .high false 0 .high

/-- A slave in its data Ack hold, one cycle before the end (VS17's pre-state). -/
def dataHold : Slave := slaveOf .done 11 1 1 true true .low false 1 .low

/-- A slave that receives bit `cb` of the address, on a High line. -/
def awaitBit (cb : BitVec 3) : Slave := slaveOf .receivingAddress 3 0 cb false false .low false 0 .high

/-- A slave that receives the data bit, on a High line. -/
def awaitData : Slave := slaveOf .receivingData 11 0 0 false false .low false 0 .high

/-- A system whose master and slave are at VS17: the data Ack hold ends. -/
def atDelivery : State := atTurn (.timer 0) .low false dataHold

theorem witness_DecodeAgreesWithEncode :
    Instr.rxBitArmA.wf = true ∧ decode (.tsv 0x014#10) = .ok .rxBitArmA ∧ decode (.msv 0xFF#8) = .ok .mHalFail ∧
      decode (.symbol (units [0, 0, 1, 1, 1, 1, 1, 1, 1, 1]) none) = .ok .bit0 := ⟨rfl, rfl, rfl, rfl⟩

theorem witness_EveryTsvSelectsExactlyOneRow :
    ∃ q ∈ tsvRows, q.selects 0x126#10 = true := by decide

theorem witness_EveryMsvSelectsExactlyOneRow :
    ∃ q ∈ msvRows, q.selects 0x00#8 = true := by decide

theorem witness_TableWordIsFetchedNext :
    decodeTableWord 16 0x140 = some .idleStartMalformed ∧ decodeTableWord 8 0x83 = some .mFinishOk ∧
      decodeTableWord 8 0 = some .ackr ∧ decodeTableWord 24 3 = some .start := by decide

/-- Both clauses of `fc` at both ends of the field, and a row with `am` in its mask. -/
theorem witness_TsvBitsComeFromTheState :
    (∃ r ∈ tsvRows, r.mask.getLsbD 2 = true) ∧
      ∀ v ∈ [awaitBit 0, awaitBit 4, fullAddress, awaitData,
          slaveOf .receivingData 11 1 1 false false .low false 0 .high],
        v.Sound ∧ (v.phase = .receivingAddress ∨ v.phase = .receivingData) := by
  refine ⟨by decide, fun v hv => ?_⟩
  simp only [List.mem_cons, List.not_mem_nil, or_false] at hv
  rcases hv with rfl | rfl | rfl | rfl | rfl <;>
    exact ⟨⟨by decide, by decide, by decide, by decide, by decide, by decide, by decide⟩, by decide⟩

theorem witness_MsvBitsComeFromTheState :
    let s := masterTurn .idle .high (sending 8 9)
    s.slot = .masterRow ∧ s.pins.mRst = false ∧ (∃ q ∈ msvRows, q.selects s.msv = true) ∧
      s.msv = 0xA7#8 := by decide

/-- A turn of each kind fetches a word: a symbol, an MSV, a TSV of an expiry, a TSV of an edge. -/
theorem witness_StepRunsTheFetchedInstruction :
    ((driving 1 (sending 6 5)).fetch = some (.symbol (units [0, 0, 1, 1, 1, 1, 1, 1, 1, 1]) (some 5)) ∧
        decode (.symbol (units [0, 0, 1, 1, 1, 1, 1, 1, 1, 1]) (some 5)) = .ok .ackq) ∧
      ((masterTurn .idle .high (sending 8 9)).fetch = some (.msv 0xA7#8) ∧
        decode (.msv 0xA7#8) = .ok .mFinishOk) ∧
      (atDelivery.fetch = some (.tsv 0x2B5#10) ∧ decode (.tsv 0x2B5#10) = .ok .tmrDataAckEnd) ∧
      ((atTurn (.level 0) .low false fullAddress).fetch = some (.tsv 0x05C#10) ∧
        decode (.tsv 0x05C#10) = .ok .raAddrAck) ∧
      Instr.ackq.wf = true ∧ Instr.mFinishOk.wf = true ∧ Instr.tmrDataAckEnd.wf = true ∧
      Instr.raAddrAck.wf = true :=
  ⟨⟨by decide, rfl⟩, ⟨by decide, rfl⟩, ⟨by decide, rfl⟩, ⟨by decide, rfl⟩, rfl, rfl, rfl, rfl⟩

theorem witness_TurnsWriteTheirOwnRegisters :
    State.reset.fetch = none ∧ State.reset.slot = .ackDrive 0 ∧ (driving 1 (sending 6 5)).slot = .symbolDrive ∧
      (masterTurn .idle .high (sending 8 9)).slot = .masterRow ∧ atDelivery.slot = .timer 0 ∧
      (atTurn (.level 0) .low false fullAddress).slot = .level 0 := by decide

theorem witness_TurnsOfACycleActAtOnce :
    State.reset.atCycleStart ∧ (State.fresh ⟨1⟩ [3, 4] .idle []).atCycleStart :=
  ⟨⟨rfl, rfl, rfl⟩, ⟨rfl, rfl, rfl⟩⟩

theorem witness_LevelTurnFollowsTheTransitionTable :
    let s := atTurn (.level 0) .low false fullAddress
    s.slot = .level 0 ∧ s.slaves[0]? = some fullAddress ∧ (s.pins.slave 0).rst = false ∧
      s.busIn ≠ fullAddress.linePrev := by decide

/-- A turn without an edge, one with an edge in reset, and one with an edge out of reset. -/
theorem witness_EdgeExactlyWhenTheLineChanges :
    let s := atTurn (.level 0) .high false fullAddress
    let r := { atTurn (.level 0) .low false fullAddress with pins := { Pins.idle with slaves := [⟨true, false, 9⟩] } }
    let e := atTurn (.level 0) .low false fullAddress
    (s.slot = .level 0 ∧ s.slaves[0]? = some fullAddress ∧ s.busIn = fullAddress.linePrev) ∧
      (r.slot = .level 0 ∧ r.slaves[0]? = some fullAddress ∧ (r.pins.slave 0).rst = true) ∧
      (e.slot = .level 0 ∧ e.slaves[0]? = some fullAddress ∧ (e.pins.slave 0).rst = false ∧
        e.busIn ≠ fullAddress.linePrev) := by decide

/-- A turn with an expiry and one without. -/
theorem witness_TimerTurnFollowsTheExpiryRows :
    (atDelivery.slot = .timer 0 ∧ atDelivery.slaves[0]? = some dataHold ∧
        (atDelivery.pins.slave 0).rst = false ∧ dataHold.tmr = 1) ∧
      (let v := slaveOf .done 11 1 1 true true .low false 2 .low
       let s := atTurn (.timer 0) .low false v
       s.slot = .timer 0 ∧ s.slaves[0]? = some v ∧ (s.pins.slave 0).rst = false ∧ v.tmr ≠ 1) := by decide

theorem witness_MasterTurnFollowsTheStepRows :
    (masterTurn .idle .high (sending 6 5)).slot = .masterRow := rfl

theorem witness_LineIsTheWiredAndOfItsDrivers :
    let s := { State.reset with slaves := [fullAddress, dataHold] }
    s.atCycleStart := ⟨rfl, rfl, rfl⟩

theorem witness_SymbolShapes : Symbol.ackq ≠ .start := by decide

/-- A slave that drives and one that does not. -/
theorem witness_AckResponseDrivesWhileAcking :
    let s := atTurn (.ackDrive 0) .high false dataHold
    let r := atTurn (.ackDrive 0) .high false fullAddress
    (s.slot = .ackDrive 0 ∧ s.slaves[0]? = some dataHold ∧ dataHold.acking = true) ∧
      (r.slot = .ackDrive 0 ∧ r.slaves[0]? = some fullAddress ∧ fullAddress.acking = false) := by decide

/-- The first and the last cycle of the longest and of a shorter symbol. -/
theorem witness_WaveformIsItsUnitString :
    0 < 2 ∧ 0 < totLen .start * 2 ∧ 39 < totLen .start * 2 ∧ 0 < totLen .bit1 * 2 ∧ 19 < totLen .bit1 * 2 := by
  decide

/-- Every index that a clause names, the bounds of the address field, and the master's turn. -/
theorem witness_MasterDrivesByItsSymbol :
    (sending 0 0).idx = 0 ∧ (1 ≤ 1 ∧ 1 ≤ 5 ∧ (sending 1 0).idx.toNat = 1) ∧
      (1 ≤ 5 ∧ 5 ≤ 5 ∧ (sending 5 0).idx.toNat = 5) ∧ (sending 6 0).idx = 6 ∧ (sending 7 0).idx = 7 ∧
      (sending 8 0).idx = 8 ∧ (driving 1 (sending 6 5)).slot = .symbolDrive := by decide

/-- The last offset that is counted in the longest symbol. -/
theorem witness_SymbolsAreCountedThrough :
    (driving 1 (sending 0 18)).master.t + 1 < 20 * (driving 1 (sending 0 18)).k := by decide

theorem witness_ViolationsResetInPlace :
    Instr.idleLowWaiting ∈ [Instr.idleLowWaiting, .idleStartMalformed, .idleStartShort, .rxLowWaitingA,
      .rxLowWaitingD, .raAddrMismatch, .rxHighFieldFullA, .rxHighFieldFullD, .rxBitOneBadA, .rxBitOneBadD,
      .doneEventL, .doneEventH] := by decide

/-- The first and the last bit of the address, and the data bit. -/
theorem witness_BitOneSetsTheCountedBit :
    ((awaitBit 0).phase = .receivingAddress ∧ (awaitBit 0).currentBit.toNat < 5) ∧
      ((awaitBit 4).phase = .receivingAddress ∧ (awaitBit 4).currentBit.toNat < 5) ∧
      (awaitData.phase ≠ .receivingAddress ∧ awaitData.currentBit.toNat < 1) ∧
      Instr.rxBitOneD ∈ [Instr.rxBitOneA, .rxBitOneD] := by decide

theorem witness_BitZeroOnlyCounts : Instr.rxBitZeroD ∈ [Instr.rxBitZeroA, .rxBitZeroD] := by decide

theorem witness_PlainExpiryOnlySamples :
    Instr.tmrPlainD ∈ [Instr.tmrPlainI, .tmrPlainA, .tmrPlainD] := by decide

theorem witness_StrayAckReleases : Instr.tmrStrayAckA ∈ [Instr.tmrStrayAckI, .tmrStrayAckA] := by decide

theorem witness_ResetWritesEveryRegister :
    let p := { Pins.idle with mRst := true, slaves := [⟨true, false, 9⟩] }
    let m := masterTurn p .low (sending 3 4)
    let t := { atDelivery with pins := p }
    let l := { atTurn (.level 0) .low false fullAddress with pins := p }
    (m.slot = .masterRow ∧ m.pins.mRst = true) ∧
      (t.slaves[0]? = some dataHold ∧ (t.pins.slave 0).rst = true ∧ t.slot = .timer 0) ∧
      (l.slaves[0]? = some fullAddress ∧ (l.pins.slave 0).rst = true ∧ l.slot = .level 0) := by decide

/-- A system of one sound slave is sound. -/
theorem slavesSound_of_one (s : State) (v : Slave) (hs : s.slaves = [v]) (hv : v.Sound)
    (hd : v.acking = true → v.linePrev = .low ∧ (s.slot.drivenBy 0 = true → s.wire = .low)) :
    s.SlavesSound := by
  intro j w h
  rw [hs] at h
  cases j with
  | zero =>
    obtain rfl : v = w := by simpa using h
    exact ⟨hv, hd⟩
  | succ j => simp at h

/-- A slave that is about to acknowledge, and one that is about to deliver. -/
theorem witness_SlaveInvariantsKept :
    (let s := atTurn (.level 0) .low false fullAddress
     s.wiredAnd ∧ s.SlavesSound ∧ ∃ t, step s = .next t) ∧
      (atDelivery.wiredAnd ∧ atDelivery.SlavesSound ∧ ∃ t, step atDelivery = .next t) := by
  refine ⟨⟨⟨by decide, by decide⟩, slavesSound_of_one _ _ rfl ?_ (by decide), _, rfl⟩,
    ⟨by decide, by decide⟩, slavesSound_of_one _ _ rfl ?_ (by decide), _, rfl⟩ <;>
  exact ⟨by decide, by decide, by decide, by decide, by decide, by decide, by decide⟩

theorem witness_ReachableSlavesAreSound :
    let s := State.fresh ⟨0⟩ [3] .idle []
    s.wiredAnd ∧ ∃ t, s.run 1 = .next t ∧ ∃ v, v ∈ t.slaves :=
  ⟨⟨by decide, by decide⟩, _, rfl, _, List.mem_cons_self⟩

/-- The last cycles of the first and of the last symbol. -/
theorem witness_MasterInvariantKept :
    (let s := masterTurn .idle .high (sending 0 19)
     s.master.Sound s.k ∧ ∃ t, step s = .next t) ∧
      (let s := masterTurn .idle .high (sending 8 9)
       s.master.Sound s.k ∧ ∃ t, step s = .next t) :=
  ⟨⟨⟨by decide, by decide, by decide⟩, _, rfl⟩, ⟨⟨by decide, by decide, by decide⟩, _, rfl⟩⟩

/-- A master and a slave at their bounds. -/
theorem witness_CountersStayBounded :
    let s := { masterTurn .idle .high (sending 0 31) with
      slaves := [slaveOf .idle 0 0 0 true false .high false 15 .low] }
    s.CountersBounded ∧ ∃ t, step s = .next t :=
  ⟨⟨by decide, by decide⟩, _, rfl⟩

/-- A turn in reset and a turn out of reset. -/
theorem witness_OwnAddressChangesOnlyInReset :
    (let s := { atDelivery with pins := { Pins.idle with slaves := [⟨true, false, 9⟩] } }
     s.slaves[0]? = some dataHold ∧ s.slot = .timer 0 ∧ (s.pins.slave 0).rst = true ∧ ∃ t, step s = .next t) ∧
      (atDelivery.slaves[0]? = some dataHold ∧ (atDelivery.pins.slave 0).rst = false ∧
        ∃ t, step atDelivery = .next t) :=
  ⟨⟨rfl, rfl, rfl, _, rfl⟩, rfl, rfl, _, rfl⟩

/-- A delivery, which changes `rx_data` and raises `rx_valid`. -/
theorem witness_DeliveryOnlyAfterTheDataAck :
    ∃ t w, atDelivery.slaves[0]? = some dataHold ∧ t.slaves[0]? = some w ∧ step atDelivery = .next t ∧
      w.rxData ≠ dataHold.rxData ∧ dataHold.rxValid = false ∧ w.rxValid = true :=
  ⟨_, _, rfl, rfl, rfl, by decide, rfl, rfl⟩

/-- A finish with another result, and a reset of a master that holds one. -/
theorem witness_ResultHeldUntilTheNextFinish :
    (let s := masterTurn .idle .high (sending 6 5)
     ∃ t, step s = .next t ∧ t.master.result ≠ s.master.result) ∧
      (let s := masterTurn { Pins.idle with mRst := true } .high ⟨false, 0, 0, 0, 0, 4, false⟩
       ∃ t, step s = .next t ∧ t.master.result ≠ s.master.result ∧ s.pins.mRst = true) :=
  ⟨⟨_, rfl, by decide⟩, _, rfl, by decide, rfl⟩

/-- A slave's turn, which is neither the master's nor the clock's nor another slave's. -/
theorem witness_TurnsTouchOnlyTheirOwnUnit :
    atDelivery.slot ≠ .masterRow ∧ atDelivery.slot ≠ .clock ∧ atDelivery.slot ≠ .timer 1 ∧
      atDelivery.slot ≠ .level 1 ∧ ∃ t, step atDelivery = .next t :=
  ⟨by decide, by decide, by decide, by decide, _, rfl⟩

/-- Two systems that differ in the master and in another slave. -/
theorem witness_SlaveSeesOthersOnlyThroughTheLine :
    let s2 := { atDelivery with master := sending 8 9, slaves := [dataHold, fullAddress] }
    atDelivery.slot = s2.slot ∧ (atDelivery.slot = .timer 0 ∨ atDelivery.slot = .level 0) ∧
      atDelivery.slaves[0]? = s2.slaves[0]? ∧ atDelivery.pins.slave 0 = s2.pins.slave 0 ∧
      atDelivery.busIn = s2.busIn ∧ atDelivery.k = s2.k ∧ (∃ t, step atDelivery = .next t) ∧
      ∃ t, step s2 = .next t :=
  ⟨rfl, .inl rfl, rfl, rfl, rfl, rfl, ⟨_, rfl⟩, _, rfl⟩

/-- VS10 and VS16: the address Ack and the data Ack begin. -/
theorem witness_SlavesDriveOnlyToAcknowledge :
    (let s := atTurn (.level 0) .low false fullAddress
     ∃ t w, s.slaves[0]? = some fullAddress ∧ t.slaves[0]? = some w ∧ step s = .next t ∧
       fullAddress.acking = false ∧ w.acking = true) ∧
      (let v := slaveOf .receivingData 11 1 1 false false .low false 0 .high
       let s := atTurn (.level 0) .low false v
       ∃ t w, s.slaves[0]? = some v ∧ t.slaves[0]? = some w ∧ step s = .next t ∧
         v.acking = false ∧ w.acking = true) :=
  ⟨⟨_, _, rfl, rfl, rfl, rfl, rfl⟩, _, _, rfl, rfl, rfl, rfl, rfl⟩

/-- K = 1: Lows of 4, 5 and 6 cycles, at the first and the last address bit and at the data bit. -/
theorem witness_BitThresholds :
    (∀ v ∈ [awaitBit 0, awaitBit 4, awaitData],
      ((v.phase = .receivingAddress ∧ v.currentBit.toNat < 5) ∨
        (v.phase = .receivingData ∧ v.currentBit.toNat < 1)) ∧
      v.awaitingTimer = false ∧ v.acking = false ∧ v.linePrev = .high) ∧
    0 < 1 ∧ (1 ≤ 4 ∧ 4 < 5 * 1) ∧ (1 ≤ 5 ∧ 5 = 5 * 1) ∧ 1 ≤ 6 ∧ 5 * 1 < 6 := by decide

/-- K = 1: Lows of 14, 15 and 16 cycles. -/
theorem witness_StartThresholds :
    let v := slaveOf .idle 0 0 0 false false .high false 0 .high
    (v.phase = .idle ∧ v.awaitingTimer = false ∧ v.linePrev = .high) ∧
      0 < 1 ∧ (1 ≤ 14 ∧ 14 < 15 * 1) ∧ (1 ≤ 15 ∧ 15 = 15 * 1) ∧ 1 ≤ 16 ∧ 15 * 1 < 16 := by decide

/-- K = 1: after 1, 8 and 9 cycles. -/
theorem witness_AckHoldLastsEightUnits :
    (fullAddress.phase = .receivingAddress ∧ fullAddress.awaitingTimer = false ∧ fullAddress.currentBit = 5 ∧
      fullAddress.addressAccum = fullAddress.ownAddress ∧ fullAddress.linePrev = .high) ∧
      0 < 1 ∧ (1 ≤ 1 ∧ 1 ≤ 8 * 1) ∧ (1 ≤ 8 ∧ 8 ≤ 8 * 1) ∧ 9 = 8 * 1 + 1 := by decide

/-- The first and the last cycle of a countdown of 5. -/
theorem witness_CountdownExpiresOnTime :
    let v := slaveOf .receivingAddress 0 0 0 true false .low false 5 .low
    v.linePrev = .low ∧ 0 < v.tmr ∧ 4 < v.tmr ∧ 4 + 1 = v.tmr ∧ v.acking = false ∧ v.phase ≠ .done := by decide

/-- Frames that end at the address sample, at the data sample and with Ok; the last cycle of each. -/
theorem witness_FrameTimeline :
    0 < 1 ∧ (sending 0 0).busy = true ∧ (sending 0 0).idx = 0 ∧ (sending 0 0).t = 0 ∧
      (∀ n : Nat, ((fun _ => Pins.idle : Nat → Pins) n).mRst = false ∧
        ((fun _ => Pins.idle : Nat → Pins) n).mDrvFault = false) ∧
      (∃ levels : Nat → Level, levels (75 * 1) = .high ∧ 75 ≤ 75 * 1) ∧
      (∃ levels : Nat → Level, levels (75 * 1) ≠ .high ∧ levels (95 * 1) = .high ∧ 95 ≤ 95 * 1) ∧
      ∃ levels : Nat → Level, levels (75 * 1) ≠ .high ∧ levels (95 * 1) ≠ .high ∧ 99 ≤ 100 * 1 - 1 :=
  ⟨by decide, rfl, rfl, rfl, fun _ => ⟨rfl, rfl⟩, ⟨fun _ => .high, rfl, by decide⟩,
    ⟨fun n => if n = 95 then .high else .low, by decide, by decide, by decide⟩,
    fun _ => .low, by decide, by decide, by decide⟩

/-- The first and the last cycle of a frame. -/
theorem witness_FrameEndsInTime :
    0 < 1 ∧ (sending 0 0).Sound 1 ∧ (sending 0 0).busy = true ∧ (sending 8 9).Sound 1 ∧
      (sending 8 9).busy = true :=
  ⟨by decide, ⟨by decide, by decide, by decide⟩, rfl, ⟨by decide, by decide, by decide⟩, rfl⟩
end

/-! # The turns of a clock cycle

The row that an event selects is given by the bits of its select vector, and does what the conditions of the
rules say (`exec_levelInstr`, `exec_timerInstr`, `exec_masterInstr`). So each turn makes of the state what
`Reference` says of its unit (`step_ackDrive` to `step_clock`), and the turns of a cycle
make the whole cycle. -/

namespace Sys2Proof.Machine

/-! ## The row that an event selects -/

/-- The level row of a falling edge at a slave, by the bits of its TSV (30_encoding.md R90). -/
def fallInstr (v : Slave) : Instr :=
  match v.phase with
  | .idle => if v.awaitingTimer then .idleLowWaiting else .idleStartArm
  | .receivingAddress =>
    if v.awaitingTimer then .rxLowWaitingA
    else if fieldComplete v then (if addressMatch v then .raAddrAck else .raAddrMismatch)
    else .rxBitArmA
  | .receivingData =>
    if v.awaitingTimer then .rxLowWaitingD
    else if fieldComplete v then .rdDataAck
    else .rxBitArmD
  | .done => .doneEventL

/-- The level row of a rising edge that is not ignored, by the bits of the TSV (30_encoding.md R90). -/
def riseInstr (v : Slave) : Instr :=
  match v.phase with
  | .idle =>
    if v.awaitingTimer then .idleStartShort
    else if v.lastSampled = .high then .idleStartMalformed
    else .idleStartOk
  | .receivingAddress =>
    if fieldComplete v then .rxHighFieldFullA
    else if v.awaitingTimer then .rxBitZeroA
    else if v.lastSampled = .high then .rxBitOneBadA
    else .rxBitOneA
  | .receivingData =>
    if fieldComplete v then .rxHighFieldFullD
    else if v.awaitingTimer then .rxBitZeroD
    else if v.lastSampled = .high then .rxBitOneBadD
    else .rxBitOneD
  | .done => .doneEventH

/-- The level row of an edge to `line` at a slave. -/
def levelInstr (line : Level) (v : Slave) : Instr :=
  match line with
  | .low => fallInstr v
  | .high => if v.ignoreRise then .lvlIgnoreRise else riseInstr v

/-- The timer row of an expiry at a slave, by the bits of its TSV (30_encoding.md R90). -/
def timerInstr (v : Slave) : Instr :=
  match v.phase with
  | .idle => if v.acking then .tmrStrayAckI else .tmrPlainI
  | .receivingAddress => if v.acking then .tmrStrayAckA else .tmrPlainA
  | .receivingData => if v.acking then .tmrAddrAckEnd else .tmrPlainD
  | .done => .tmrDataAckEnd

/-- The master's row, by the bits of an MSV (30_encoding.md R91). -/
def masterInstrOfBits (busy start valid fault sp lvl eos last : Bool) : Instr :=
  if busy then
    if fault then .mHalFail
    else if sp then (if lvl then .mAckNack else .mAckSeen)
    else if eos then (if last then .mFinishOk else .mNextSymbol)
    else .mHold
  else if start then (if valid then .mAccept else .mReject)
  else .mIdleWait

/-- A finite check over the bits of the TSV. -/
theorem decode_tsv_level (line : Level) (v : Slave) :
    decode (.tsv (tsv false line v)) = .ok (levelInstr line v) := by
  unfold tsv levelInstr fallInstr riseInstr
  generalize v.phase = phase, v.lastSampled = last, v.awaitingTimer = waiting, v.acking = acking,
    v.ignoreRise = ignore, fieldComplete v = full, addressMatch v = matched
  revert waiting acking ignore full matched
  cases line <;> cases last <;> cases phase <;> decide +kernel

/-- A finite check over the bits of the TSV. -/
theorem decode_tsv_timer (line : Level) (v : Slave) :
    decode (.tsv (tsv true line v)) = .ok (timerInstr v) := by
  unfold tsv timerInstr
  generalize v.phase = phase, v.lastSampled = last, v.awaitingTimer = waiting, v.acking = acking,
    v.ignoreRise = ignore, fieldComplete v = full, addressMatch v = matched
  revert waiting acking ignore full matched
  cases line <;> cases last <;> cases phase <;> decide +kernel

/-- A finite check over the 256 values of the bits. -/
theorem decode_packMsv : ∀ busy start valid fault sp lvl eos last : Bool,
    decode (.msv (packMsv busy start valid fault sp lvl eos last)) =
      .ok (masterInstrOfBits busy start valid fault sp lvl eos last) := by
  decide +kernel

/-- The row of the MSV of a cycle (41_master_transmitter.md R131). -/
def State.masterInstr (s : State) : Instr :=
  masterInstrOfBits s.master.busy s.pins.mStart (requestValid s.pins) s.pins.mDrvFault
    (samplePoint s.k s.master) (levelBit s.busIn) (endOfSymbol s.k s.master) (lastSymbol s.master)

theorem decode_msv (s : State) : decode (.msv s.msv) = .ok s.masterInstr := decode_packMsv ..

theorem decode_symbolInstr (x : Symbol) : decode (encode (symbolInstr x)) = .ok (symbolInstr x) := by
  cases x <;> rfl

/-! ## One unit's operation on the state -/

/-- An operation on the slave whose turn it is matters only by what it makes of that slave. -/
theorem State.onUnit_congr {f g : Slave → Slave} {s : State}
    (h : ∀ v, s.slaves[s.slot.unit]? = some v → f v = g v) : s.onUnit f = s.onUnit g := by
  have hs : s.slaves.modify s.slot.unit f = s.slaves.modify s.slot.unit g := by
    refine List.ext_getElem? fun j => ?_
    rw [List.getElem?_modify, List.getElem?_modify]
    by_cases hj : s.slot.unit = j
    · cases hv : s.slaves[j]? with
      | none => rfl
      | some v => simp [hj, h v (hj ▸ hv)]
    · simp [hj]
  simp only [State.onUnit, hs]

theorem State.onUnit_onUnit (f g : Slave → Slave) (s : State) :
    (s.onUnit f).onUnit g = s.onUnit (g ∘ f) := by
  simp only [State.onUnit, List.modify_modify_eq]

/-- A level row, by what it makes of the slave at which the edge occurs. -/
theorem levelRow_eq {row g : Slave → Slave} {s : State} {v : Slave}
    (hv : s.slaves[s.slot.unit]? = some v) (h : row (levelEvent v) = g v) :
    levelRow row s = .next (s.onUnit g) :=
  congrArg _ (State.onUnit_congr fun w hw => by
    obtain rfl : v = w := Option.some.inj (hv.symm.trans hw)
    exact h)

/-- A timer row, by what it makes of the slave whose countdown expires. -/
theorem timerRow_eq {row g : Slave → Slave} {s : State} {v : Slave}
    (hv : s.slaves[s.slot.unit]? = some v) (h : row (timerExpiry s.busIn v) = g v) :
    timerRow row s = .next (s.onUnit g) :=
  congrArg _ (State.onUnit_congr fun w hw => by
    obtain rfl : v = w := Option.some.inj (hv.symm.trans hw)
    exact h)

/-- A row of the master, by what it makes of the master. -/
theorem onMaster_next {f g : Master → Master} {s : State} (h : f s.master = g s.master) :
    (.next (s.onMaster f) : Host.Outcome State Fault Refusal) = .next (s.onMaster g) := by
  simp only [State.onMaster, h]

/-- The slave whose turn it is after an operation on it. -/
theorem State.onUnit_getElem?_unit {f : Slave → Slave} {s : State} {v : Slave}
    (hv : s.slaves[s.slot.unit]? = some v) : (s.onUnit f).slaves[s.slot.unit]? = some (f v) := by
  rw [State.onUnit_getElem?, if_pos rfl, hv]; rfl

/-- What holds of every slave before and after an operation on one. -/
theorem State.onUnit_forall {P : Slave → Prop} {f : Slave → Slave} {s : State} (h : ∀ v ∈ s.slaves, P v)
    (hf : ∀ v, P v → P (f v)) : ∀ v ∈ (s.onUnit f).slaves, P v := by
  intro v hv
  obtain ⟨j, hj⟩ := List.getElem?_of_mem hv
  rw [State.onUnit_getElem?] at hj
  split at hj
  · obtain ⟨u, hu, rfl⟩ := Option.map_eq_some_iff.mp hj
    exact hf u (h u (List.mem_of_getElem? hu))
  · exact h v (List.mem_of_getElem? hj)

/-! ## The rows by the conditions of the rules -/

/-- The row of a falling edge does what the rules say under their conditions. -/
theorem exec_fallInstr {s : State} {v : Slave} (hv : s.slaves[s.slot.unit]? = some v) :
    exec (fallInstr v) s = .next (s.onUnit (Reference.levelEvent s.k s.unitPins.drvFault .low)) := by
  unfold fallInstr
  cases hp : v.phase with
  | idle =>
    dsimp only
    split_ifs with hw <;> exact levelRow_eq hv (by simp [Reference.levelEvent, hp, hw])
  | receivingAddress =>
    simp only [fieldComplete_receivingAddress hp, decide_eq_true_iff, addressMatch, beq_iff_eq,
      BitVec.ofNat_eq_ofNat]
    split_ifs with hw hc ha
    · exact levelRow_eq hv (by simp [Reference.levelEvent, hp, hw])
    · exact levelRow_eq (row := withDriver s.unitPins.drvFault fun v =>
          { arm s.k tAckHold (driveLow v) with currentBit := 0, phase := .receivingData }) hv
        (by simp [Reference.levelEvent, withDriver, levelEvent, hp, hw, hc, ha])
    · exact levelRow_eq hv (by simp [Reference.levelEvent, hp, hw, hc, ha])
    · exact levelRow_eq hv (by simp [Reference.levelEvent, hp, hw, hc])
  | receivingData =>
    simp only [fieldComplete_receivingData hp, decide_eq_true_iff, BitVec.ofNat_eq_ofNat]
    split_ifs with hw hc
    · exact levelRow_eq hv (by simp [Reference.levelEvent, hp, hw])
    · exact levelRow_eq (row := withDriver s.unitPins.drvFault fun v =>
          { arm s.k tAckHold (driveLow v) with phase := .done }) hv
        (by simp [Reference.levelEvent, withDriver, levelEvent, hp, hw, hc])
    · exact levelRow_eq hv (by simp [Reference.levelEvent, hp, hw, hc])
  | done => exact levelRow_eq hv (by simp [Reference.levelEvent, hp])

/-- The row of a rising edge that is not ignored does what the rules say under their conditions. -/
theorem exec_riseInstr {s : State} {v : Slave} (hv : s.slaves[s.slot.unit]? = some v)
    (hi : v.ignoreRise = false) :
    exec (riseInstr v) s = .next (s.onUnit (Reference.levelEvent s.k s.unitPins.drvFault .high)) := by
  unfold riseInstr
  cases hp : v.phase with
  | idle =>
    dsimp only
    split_ifs with hw hl
    · exact levelRow_eq hv (by simp [Reference.levelEvent, hi, hp, hw])
    · exact levelRow_eq hv (by simp [Reference.levelEvent, hi, hp, hw, hl])
    · exact levelRow_eq (row := fun v => { v with phase := .receivingAddress, currentBit := 0 }) hv
        (by simp [Reference.levelEvent, hi, hp, hw, hl])
  | receivingAddress =>
    simp only [fieldComplete_receivingAddress hp, decide_eq_true_iff, BitVec.ofNat_eq_ofNat]
    split_ifs with hc hw hl
    · exact levelRow_eq hv (by simp [Reference.levelEvent, hi, hp, hc])
    · exact levelRow_eq hv (by simp [Reference.levelEvent, hi, hp, hc, hw])
    · exact levelRow_eq hv (by simp [Reference.levelEvent, hi, hp, hc, hw, hl])
    · exact levelRow_eq (row := countBit ∘ setReceivedBit) hv
        (by simp [Reference.levelEvent, setReceivedBit, hi, hp, hc, hw, hl])
  | receivingData =>
    simp only [fieldComplete_receivingData hp, decide_eq_true_iff, BitVec.ofNat_eq_ofNat]
    split_ifs with hc hw hl
    · exact levelRow_eq hv (by simp [Reference.levelEvent, hi, hp, hc])
    · exact levelRow_eq hv (by simp [Reference.levelEvent, hi, hp, hc, hw])
    · exact levelRow_eq hv (by simp [Reference.levelEvent, hi, hp, hc, hw, hl])
    · exact levelRow_eq (row := countBit ∘ setReceivedBit) hv
        (by simp [Reference.levelEvent, setReceivedBit, hi, hp, hc, hw, hl])
  | done => exact levelRow_eq hv (by simp [Reference.levelEvent, hi, hp])

/-- The row of an edge does what the rules R165 to R181 say. -/
theorem exec_levelInstr {s : State} {v : Slave} (hv : s.slaves[s.slot.unit]? = some v) :
    exec (levelInstr s.busIn v) s =
      .next (s.onUnit (Reference.levelEvent s.k s.unitPins.drvFault s.busIn)) := by
  cases s.busIn with
  | low => exact exec_fallInstr hv
  | high =>
    unfold levelInstr
    split_ifs with hi
    · exact levelRow_eq hv (by simp [Reference.levelEvent, hi])
    · exact exec_riseInstr hv (by simpa using hi)

/-- The row of an expiry does what the rules R182 to R186 say. -/
theorem exec_timerInstr {s : State} {v : Slave} (hv : s.slaves[s.slot.unit]? = some v) :
    exec (timerInstr v) s = .next (s.onUnit (Reference.timerExpiry s.unitPins.drvFault s.busIn)) := by
  unfold timerInstr
  cases hp : v.phase with
  | idle =>
    dsimp only
    split_ifs with ha
    · exact timerRow_eq hv (by simp [Reference.timerExpiry, withDriver, release, hp, ha])
    · exact timerRow_eq hv (by simp [Reference.timerExpiry, hp, ha, timerExpiry])
  | receivingAddress =>
    dsimp only
    split_ifs with ha
    · exact timerRow_eq hv (by simp [Reference.timerExpiry, withDriver, release, hp, ha])
    · exact timerRow_eq hv (by simp [Reference.timerExpiry, hp, ha, timerExpiry])
  | receivingData =>
    dsimp only
    split_ifs with ha
    · exact timerRow_eq hv (by simp [Reference.timerExpiry, withDriver, release, hp, ha])
    · exact timerRow_eq hv (by simp [Reference.timerExpiry, hp, ha])
  | done =>
    refine timerRow_eq (row := fun v => withDriver (s.unitPins.drvFault && v.acking)
      (fun v => resetToIdle .frameDone (deliver v.dataAccum (release v))) v) hv ?_
    simp [Reference.timerExpiry, withDriver, resetToIdle, deliver, hp, and_comm]

/-! ### The master's conditions and its row -/

theorem levelBit_iff (l : Level) : levelBit l = true ↔ l = .high := by
  cases l <;> simp [levelBit]

/-- The sample point in the terms of the index itself (41_master_transmitter.md R137, R138). -/
theorem samplePoint_iff_idx (k : Nat) (m : Master) :
    samplePoint k m = true ↔ (m.idx = 6 ∨ m.idx = 8) ∧ m.t = 5 * k := by
  rw [samplePoint_iff, ← BitVec.toNat_inj, ← BitVec.toNat_inj]; rfl

theorem lastSymbol_iff_idx (m : Master) : lastSymbol m = true ↔ m.idx = 8 := by
  rw [lastSymbol_iff, ← BitVec.toNat_inj]; rfl

/-- The code of a missing ack names the field that was queried (41_master_transmitter.md R137). -/
theorem nackCode_eq (m : Master) :
    resultBits (if m.idx.toNat = idxQa then .addressNack else .dataNack) = if m.idx = 6 then 1 else 2 := by
  have h : m.idx.toNat = idxQa ↔ m.idx = 6 := BitVec.toNat_inj (y := 6#4)
  simp only [h]; split <;> rfl

/-- The master's row does what the rules say under their conditions. -/
theorem exec_masterInstr {s : State} (hr : ¬ s.pins.mRst = true) :
    exec s.masterInstr s = .next (s.onMaster (Reference.masterCycle s.k s.pins s.busIn)) := by
  simp only [State.masterInstr, masterInstrOfBits, requestValid_iff, samplePoint_iff_idx, endOfSymbol_iff,
    lastSymbol_iff_idx, levelBit_iff]
  split_ifs with hb hf hs hl he hx hm hq <;> refine onMaster_next ?_ <;> unfold Reference.masterCycle
  · rw [if_neg hr, if_pos hb, if_pos hf]; rfl
  · rw [if_neg hr, if_pos hb, if_neg hf, if_pos hs, hl]
    simp only [finish, nackCode_eq, clearDone]
  · have hlow : s.busIn = .low := by cases h : s.busIn with
      | low => rfl
      | high => exact absurd h hl
    rw [if_neg hr, if_pos hb, if_neg hf, if_pos hs, hlow]; rfl
  · rw [if_neg hr, if_pos hb, if_neg hf, if_neg hs, if_pos he, if_pos hx]; rfl
  · rw [if_neg hr, if_pos hb, if_neg hf, if_neg hs, if_pos he, if_neg hx]; rfl
  · rw [if_neg hr, if_pos hb, if_neg hf, if_neg hs, if_neg he]; rfl
  · rw [if_neg hr, if_neg hb, if_pos hm, if_pos hq]; rfl
  · rw [if_neg hr, if_neg hb, if_pos hm, if_neg hq]; rfl
  · rw [if_neg hr, if_neg hb, if_neg hm]; rfl

/-! ## What each turn makes of the state -/

/-- A slave's drive of the line. -/
theorem step_ackDrive {s : State} {j : Nat} (hs : s.slot = .ackDrive j) :
    step s = .next (s.pull (s.slaves[j]?.any Slave.driveLow)).advance := by
  have hp : s.prepare = s := by simp only [State.prepare, hs]
  have hf : s.fetch = if s.slaves[j]?.any Slave.driveLow then some (encode .ackr) else none := by
    simp only [State.fetch, hs]
    cases s.slaves[j]? <;> rfl
  cases hd : s.slaves[j]?.any Slave.driveLow with
  | true =>
    rw [hd, if_pos rfl] at hf
    exact step_of_fetch (i := .ackr) hf rfl (by rw [hp]; rfl)
  | false =>
    rw [hd, if_neg Bool.false_ne_true] at hf
    rw [step_of_fetch_none hf, hp]; rfl

/-- What a symbol's instruction does besides the sample of ACKQ (40_symbol_codec.md R112 to R115). -/
theorem exec_symbolInstr (x : Symbol) (s : State) :
    ∃ ack, exec (symbolInstr x) s = .next { s.emit x with ackWire := ack } := by
  cases x <;> exact ⟨_, rfl⟩

/-- The master's drive of the line. -/
theorem step_symbolDrive {s : State} (hs : s.slot = .symbolDrive) :
    ∃ ack, step s = .next { s.pull (s.master.driveLow s.k) with ackWire := ack }.advance := by
  have hp : s.prepare = s := by simp only [State.prepare, hs]
  by_cases hb : s.master.busy = true
  · obtain ⟨ack, he⟩ := exec_symbolInstr (symbolAt s.master) s
    have hd : s.master.driveLow s.k = emitsLow s.k (symbolAt s.master) s.master.t := by
      simp [Master.driveLow, hb]
    rw [hd]
    have hf : s.fetch = some (encode (symbolInstr (symbolAt s.master))) := by
      simp only [State.fetch, hs, hb, if_true]
    exact ⟨ack, step_of_fetch hf (decode_symbolInstr _) (by rw [hp]; exact he)⟩
  · have hd : s.master.driveLow s.k = false := by simp [Master.driveLow, hb]
    exact ⟨s.ackWire, by
      rw [step_of_fetch_none (by simp [State.fetch, hs, hb]), hp, hd]; rfl⟩

/-- The master's turn. -/
theorem step_masterRow {s : State} (hs : s.slot = .masterRow) :
    step s = .next (s.onMaster (Reference.masterCycle s.k s.pins s.busIn)).advance := by
  by_cases hr : s.pins.mRst = true
  · rw [step_of_fetch_none (by simp only [State.fetch, hs, hr, if_true])]
    simp [State.prepare, hs, hr, Reference.masterCycle, State.onMaster]
  · refine step_of_fetch (by simp only [State.fetch, hs, if_neg hr]) (decode_msv s) ?_
    simp only [State.prepare, hs, if_neg hr, exec_masterInstr hr]

/-- A slave in its timer turn: the countdown, and the rules of an expiry. -/
def timerTurn (p : SlavePins) (line : Level) (v : Slave) : Slave :=
  if p.rst then Slave.atReset p.cfgOwnAddress line
  else if v.tmr = 1 then Reference.timerExpiry p.drvFault line (tick v)
  else tick v

/-- A slave in its level turn: `line_prev`, and the rules of an edge. -/
def levelTurn (k : Nat) (p : SlavePins) (line : Level) (v : Slave) : Slave :=
  if p.rst = false ∧ line ≠ v.linePrev then
    Reference.levelEvent k p.drvFault line { v with linePrev := line }
  else { v with linePrev := line }

/-- An expiry neither reads nor writes `line_prev`. -/
theorem Reference.timerExpiry_linePrev_comm (drvFault : Bool) (line l : Level) (v : Slave) :
    { Reference.timerExpiry drvFault line v with linePrev := l } =
      Reference.timerExpiry drvFault line { v with linePrev := l } := by
  obtain ⟨_, phase, _, _, _, _, acking, _, _, _, _, _, _, _⟩ := v
  cases phase <;> cases acking <;> cases drvFault <;> rfl

@[simp] theorem Reference.timerExpiry_linePrev (drvFault : Bool) (line : Level) (v : Slave) :
    (Reference.timerExpiry drvFault line v).linePrev = v.linePrev := by
  have h := Reference.timerExpiry_linePrev_comm drvFault line v.linePrev v
  exact (congrArg Slave.linePrev h).symm

theorem timerTurn_linePrev {p : SlavePins} (hr : ¬ p.rst = true) (line : Level) (v : Slave) :
    (timerTurn p line v).linePrev = v.linePrev := by
  rw [timerTurn, if_neg hr]
  split <;> simp

/-- The two turns of a slave in a cycle are its cycle. -/
theorem levelTurn_timerTurn (k : Nat) (p : SlavePins) (line : Level) (v : Slave) :
    levelTurn k p line (timerTurn p line v) = Reference.slaveCycle k p line v := by
  by_cases hr : p.rst = true
  · simp [levelTurn, timerTurn, Reference.slaveCycle, hr, Slave.atReset]
  · have hw : { timerTurn p line v with linePrev := line } =
        (let v1 := { v with tmr := v.tmr - 1, linePrev := line, rxValid := false, halFail := false }
         if v.tmr = 1 then Reference.timerExpiry p.drvFault line v1 else v1) := by
      rw [timerTurn, if_neg hr]
      split
      · exact Reference.timerExpiry_linePrev_comm ..
      · rfl
    rw [levelTurn, timerTurn_linePrev hr, hw]
    simp only [Reference.slaveCycle, Bool.not_eq_true _ ▸ hr, true_and]
    rfl

/-- A turn of a slave in which no event happens, by what the turn's own writes make of the slave. -/
theorem step_unit_of_no_event {s : State} {f g : Slave → Slave} (hf : s.fetch = none)
    (hp : s.prepare = s.onUnit f) (h : ∀ v, s.slaves[s.slot.unit]? = some v → f v = g v) :
    step s = .next (s.onUnit g).advance := by
  rw [step_of_fetch_none hf, hp, State.onUnit_congr h]

/-- A turn of a slave `v` with an event, by what its row `i` makes of the slave that the turn's own writes
leave. -/
theorem step_unit_of_event {s : State} {f g h : Slave → Slave} {v : Slave} {w : Word} {i : Instr}
    (hv : s.slaves[s.slot.unit]? = some v) (hf : s.fetch = some w) (hd : decode w = .ok i)
    (hp : s.prepare = s.onUnit f) (he : exec i (s.onUnit f) = .next ((s.onUnit f).onUnit g))
    (hg : g (f v) = h v) : step s = .next (s.onUnit h).advance := by
  have he' : exec i s.prepare = .next ((s.onUnit f).onUnit g) := by rw [hp, he]
  rw [step_of_fetch hf hd he', State.onUnit_onUnit]
  have hgh : s.onUnit (g ∘ f) = s.onUnit h := State.onUnit_congr fun u hu => by
    obtain rfl : v = u := Option.some.inj (hv.symm.trans hu)
    exact hg
  rw [hgh]

theorem State.unitPins_of_slot {s : State} {j : Nat} (hs : s.slot = .timer j ∨ s.slot = .level j) :
    s.slot.unit = j ∧ s.unitPins = s.pins.slave j := by
  rcases hs with hs | hs <;> simp [State.unitPins, hs, Slot.unit]

/-- A slave's timer turn. -/
theorem step_timer {s : State} {j : Nat} (hs : s.slot = .timer j) :
    step s = .next (s.onUnit (timerTurn (s.pins.slave j) s.busIn)).advance := by
  obtain ⟨hu, hq⟩ := State.unitPins_of_slot (.inl hs)
  by_cases hr : (s.pins.slave j).rst = true
  · have hf : s.fetch = none := by
      simp only [State.fetch, hs, hq, hr]
      split <;> rfl
    exact step_unit_of_no_event (f := fun _ => Slave.atReset (s.pins.slave j).cfgOwnAddress s.busIn) hf
      (by simp only [State.prepare, hs, hq, if_pos hr]) fun v _ => by rw [timerTurn, if_pos hr]
  · have hp : s.prepare = s.onUnit tick := by simp only [State.prepare, hs, hq, if_neg hr]
    by_cases h : ∃ v, s.slaves[j]? = some v ∧ v.tmr = 1
    · obtain ⟨v, hv, ht⟩ := h
      have hf : s.fetch = some (.tsv (tsv true s.busIn v)) := by
        simp only [State.fetch, hs, hv, hq, hr, ht, and_self, if_true]
      have hv : s.slaves[s.slot.unit]? = some v := hu.symm ▸ hv
      refine step_unit_of_event hv hf (decode_tsv_timer _ _) hp
        (exec_timerInstr (s := s.onUnit tick) (v := tick v) (State.onUnit_getElem?_unit hv)) ?_
      rw [timerTurn, if_neg hr, if_pos ht, State.onUnit_unitPins, hq, State.onUnit_busIn]
    · have hf : s.fetch = none := by
        simp only [State.fetch, hs]
        split
        · rename_i v hv
          exact if_neg fun hc => h ⟨v, hv, hc.2⟩
        · rfl
      exact step_unit_of_no_event hf hp fun v hv => by
        rw [timerTurn, if_neg hr, if_neg fun ht => h ⟨v, hu ▸ hv, ht⟩]

/-- A slave's level turn. -/
theorem step_level {s : State} {j : Nat} (hs : s.slot = .level j) :
    step s = .next (s.onUnit (levelTurn s.k (s.pins.slave j) s.busIn)).advance := by
  obtain ⟨hu, hq⟩ := State.unitPins_of_slot (.inr hs)
  have hp : s.prepare = s.onUnit fun v => { v with linePrev := s.busIn } := by
    simp only [State.prepare, hs]
  by_cases h : ∃ v, s.slaves[j]? = some v ∧ (s.pins.slave j).rst = false ∧ s.busIn ≠ v.linePrev
  · obtain ⟨v, hv, hc⟩ := h
    have hf : s.fetch = some (.tsv (tsv false s.busIn v)) := by
      simp only [State.fetch, hs, hv, hq, if_pos hc]
    have hv : s.slaves[s.slot.unit]? = some v := hu.symm ▸ hv
    refine step_unit_of_event hv hf (decode_tsv_level _ _) hp
      (exec_levelInstr (s := s.onUnit fun v => { v with linePrev := s.busIn })
        (v := { v with linePrev := s.busIn }) (State.onUnit_getElem?_unit hv)) ?_
    rw [levelTurn, if_pos hc, State.onUnit_unitPins, hq, State.onUnit_busIn, State.onUnit_k]
  · have hf : s.fetch = none := by
      simp only [State.fetch, hs, hq]
      split
      · rename_i v hv
        exact if_neg fun hc => h ⟨v, hv, hc⟩
      · rfl
    exact step_unit_of_no_event hf hp fun v hv => by
      rw [levelTurn, if_neg fun hc => h ⟨v, hu ▸ hv, hc⟩]

theorem step_clock {s : State} (hs : s.slot = .clock) : step s = .next s.clockEdge.advance := by
  rw [step_of_fetch_none (by simp only [State.fetch, hs])]
  simp only [State.prepare, hs]

/-! ## The counters -/

/-- The count of cycles is kept, restarted at 0, or counted in its `MT_W` bits. -/
theorem Reference.masterCycle_t_lt {k : Nat} {m : Master} (p : Pins) (line : Level)
    (h : m.t < 2 ^ mtWidth k) :
    (Reference.masterCycle k p line m).t < 2 ^ mtWidth k := by
  have h0 : 0 < 2 ^ mtWidth k := Nat.two_pow_pos _
  have hc : (m.t + 1) % 2 ^ mtWidth k < 2 ^ mtWidth k := Nat.mod_lt _ h0
  unfold Reference.masterCycle
  repeat' split
  all_goals assumption

@[simp] theorem Reference.timerExpiry_tmr (drvFault : Bool) (line : Level) (v : Slave) :
    (Reference.timerExpiry drvFault line v).tmr = v.tmr := by
  unfold Reference.timerExpiry
  repeat' split
  all_goals rfl

/-- A row of an edge leaves the countdown, or arms it with 5, 8 or 15 units (42_slave_receiver.md R161). -/
theorem Reference.levelEvent_tmr_cases (k : Nat) (drvFault : Bool) (line : Level) (v : Slave) :
    let w := Reference.levelEvent k drvFault line v
    w.tmr = v.tmr ∨ w.tmr = 5 * k ∨ w.tmr = 8 * k ∨ w.tmr = 15 * k := by
  simp only [Reference.levelEvent]
  repeat' split
  all_goals simp [cycles, tStartDet, tCheckpoint, tAckHold]

theorem timerTurn_tmr_le (p : SlavePins) (line : Level) (v : Slave) :
    (timerTurn p line v).tmr ≤ v.tmr := by
  unfold timerTurn
  split_ifs <;> simp

theorem levelTurn_tmr_le (k : Nat) (p : SlavePins) (line : Level) (v : Slave) :
    (levelTurn k p line v).tmr ≤ max v.tmr (15 * k) := by
  unfold levelTurn
  split
  · have h := Reference.levelEvent_tmr_cases k p.drvFault line { v with linePrev := line }
    dsimp only at h
    omega
  · exact le_max_left ..

/-- Settles O46, turn by turn: only the master's turn writes `m_t`, and only a slave's turns its `tmr`. -/
theorem countersStayBounded : Obligations.CountersStayBounded := by
  unfold Obligations.CountersStayBounded
  rintro s t ⟨ht, htmr⟩ h
  cases hs : s.slot with
  | ackDrive j =>
    rw [step_ackDrive hs] at h
    cases h
    exact ⟨ht, htmr⟩
  | symbolDrive =>
    obtain ⟨ack, he⟩ := step_symbolDrive hs
    rw [he] at h
    cases h
    exact ⟨ht, htmr⟩
  | masterRow =>
    rw [step_masterRow hs] at h
    cases h
    exact ⟨Reference.masterCycle_t_lt _ _ ht, htmr⟩
  | timer j =>
    rw [step_timer hs] at h
    cases h
    exact ⟨ht, State.onUnit_forall htmr fun v hv => (timerTurn_tmr_le ..).trans hv⟩
  | level j =>
    rw [step_level hs] at h
    cases h
    exact ⟨ht, State.onUnit_forall htmr fun v hv => (levelTurn_tmr_le ..).trans (max_le hv le_rfl)⟩
  | clock =>
    rw [step_clock hs] at h
    cases h
    exact ⟨ht, htmr⟩

/-! ## The turns of a cycle -/

theorem State.run_succ {s t : State} (h : step s = .next t) (n : Nat) : s.run (n + 1) = t.run n := by
  have hs : Host.Core.step core s = .next t := h
  simp only [State.run, Host.Core.run, hs]
  rfl

theorem State.pull_pull (a b : Bool) (s : State) : (s.pull a).pull b = s.pull (a || b) := by
  cases a <;> cases b <;> rfl

/-- The turn in which slave `j` drives the line, or the master's when there is no such slave. -/
def Slot.drive (n j : Nat) : Slot := if j < n then .ackDrive j else .symbolDrive

/-- The first turn of slave `j` after the drives, or the clock's when there is no such slave. -/
def Slot.slave (n j : Nat) : Slot := if j < n then .timer j else .clock

/-- The slaves from `j` on drive the line one after another: it is Low after their turns when one of them
drives it. -/
theorem run_drives (r : Nat) : ∀ (d j : Nat) (s : State), j + d = s.slaves.length →
    s.slot = Slot.drive s.slaves.length j →
    s.run (d + r) =
      { s.pull ((s.slaves.drop j).any Slave.driveLow) with slot := .symbolDrive }.run r := by
  intro d
  induction d with
  | zero =>
    intro j s hj hs
    rw [Slot.drive, if_neg (by omega)] at hs
    rw [List.drop_of_length_le (by omega), Nat.zero_add, ← hs]
    rfl
  | succ d ih =>
    intro j s hj hs
    have hlt : j < s.slaves.length := by omega
    rw [Slot.drive, if_pos hlt] at hs
    have hn : (s.pull (s.slaves[j]?.any Slave.driveLow)).advance.slot =
        Slot.drive s.slaves.length (j + 1) := by
      simp only [State.advance_slot, State.pull_slot, hs]; rfl
    rw [Nat.add_right_comm, State.run_succ (step_ackDrive hs), ih (j + 1) _ (by simp; omega) hn,
      List.drop_eq_getElem_cons hlt, List.any_cons, ← State.pull_pull, List.getElem?_eq_getElem hlt]
    rfl

/-- The two turns of slave `j` after the drives are its cycle. -/
theorem run_slave (r : Nat) {s : State} {j : Nat} (hs : s.slot = .timer j) :
    s.run (r + 2) =
      { s with
        slot := Slot.slave s.slaves.length (j + 1)
        slaves := s.slaves.modify j (Reference.slaveCycle s.k (s.pins.slave j) s.busIn) }.run r := by
  have hl : ((s.onUnit (timerTurn (s.pins.slave j) s.busIn)).advance).slot = .level j := by
    simp only [State.advance_slot, State.onUnit_slot, hs]; rfl
  rw [State.run_succ (step_timer hs), State.run_succ (step_level hl)]
  have hc : levelTurn s.k (s.pins.slave j) s.busIn ∘ timerTurn (s.pins.slave j) s.busIn =
      Reference.slaveCycle s.k (s.pins.slave j) s.busIn := funext fun v => levelTurn_timerTurn ..
  refine congrArg (State.run r) ?_
  simp only [← hc, ← List.modify_modify_eq, State.advance, State.onUnit, hs, Slot.unit, Slot.next,
    List.length_modify, Slot.slave]
  rfl

/-- The slaves' turns after the drives, from slave `j` on, are a cycle of each. -/
theorem run_slaves (r : Nat) : ∀ (d j : Nat) (s : State), j + d = s.slaves.length →
    s.slot = Slot.slave s.slaves.length j →
    s.run (2 * d + r) =
      { s with
        slot := .clock
        slaves := s.slaves.mapIdx fun i v =>
          if j ≤ i then Reference.slaveCycle s.k (s.pins.slave i) s.busIn v else v }.run r := by
  intro d
  induction d with
  | zero =>
    intro j s hj hs
    rw [Slot.slave, if_neg (by omega)] at hs
    have hl : (s.slaves.mapIdx fun i v =>
        if j ≤ i then Reference.slaveCycle s.k (s.pins.slave i) s.busIn v else v) = s.slaves := by
      refine List.ext_getElem (by simp) fun i h₁ h₂ => ?_
      rw [List.getElem_mapIdx, if_neg (by omega)]
    rw [hl, ← hs, Nat.mul_zero, Nat.zero_add]
  | succ d ih =>
    intro j s hj hs
    rw [Slot.slave, if_pos (by omega)] at hs
    rw [show 2 * (d + 1) + r = (2 * d + r) + 2 by omega, run_slave _ hs,
      ih (j + 1) _ (by simp; omega) (by simp)]
    refine congrArg (fun l => ({ s with slot := .clock, slaves := l } : State).run r) ?_
    refine List.ext_getElem (by simp) fun i h₁ h₂ => ?_
    simp only [List.getElem_mapIdx, List.getElem_modify]
    rcases Nat.lt_trichotomy i j with hij | rfl | hij
    · rw [if_neg (by omega), if_neg (by omega), if_neg (by omega)]
    · rw [if_neg (by omega), if_pos rfl, if_pos le_rfl]
    · rw [if_pos (by omega), if_neg (by omega), if_pos (by omega)]
      rfl

/-- The turns after the drives are a cycle of the master and of every slave on the line that the drives have
left, and the clock edge. -/
theorem run_units {s : State} (hs : s.slot = .masterRow) :
    s.run (2 * s.slaves.length + 2) = .next
      { s with
        master := Reference.masterCycle s.k s.pins s.busIn s.master
        slaves := s.slaves.mapIdx fun j v => Reference.slaveCycle s.k (s.pins.slave j) s.busIn v
        pins := s.stim.headD .idle
        stim := s.stim.tail
        wire := Reference.lineAlone (s.stim.headD .idle)
        ackWire := none
        slot := Slot.first s.slaves.length } := by
  set u := (s.onMaster (Reference.masterCycle s.k s.pins s.busIn)).advance with hu
  have hslot : u.slot = Slot.slave u.slaves.length 0 := by
    simp only [hu, State.advance_slot, State.onMaster_slot, hs]; rfl
  rw [State.run_succ (step_masterRow hs), ← hu,
    show 2 * s.slaves.length + 1 = 2 * u.slaves.length + 1 from rfl,
    run_slaves 1 u.slaves.length 0 u (Nat.zero_add _) hslot, State.run_succ (step_clock rfl)]
  simp only [Nat.zero_le, if_true, State.advance, State.clockEdge_slaves, List.length_mapIdx]
  rfl

/-- The turns of the drives leave the line of the cycle (20_memory.md R62), and change no register. -/
theorem run_allDrives {s : State} (hs : s.atCycleStart) :
    ∃ (wire : Level) (ack : Option Bool),
      { s with slot := .masterRow, wire := wire, ackWire := ack }.busIn = Reference.line s ∧
        ∀ r, s.run (s.slaves.length + (r + 1)) =
          { s with slot := .masterRow, wire := wire, ackWire := ack }.run r := by
  obtain ⟨hslot, hw, -⟩ := hs
  set u : State := { s.pull (s.slaves.any Slave.driveLow) with slot := .symbolDrive } with hu
  obtain ⟨ack, hdrive⟩ := step_symbolDrive (s := u) rfl
  refine ⟨(u.pull (s.master.driveLow s.k)).wire, ack, ?_, fun r => ?_⟩
  · simp only [hu, State.busIn, State.pull, hw, Reference.line, Reference.lineAlone]
    cases s.pins.external <;> cases s.master.driveLow s.k <;> cases s.slaves.any Slave.driveLow <;> rfl
  · rw [run_drives _ s.slaves.length 0 s (Nat.zero_add _) hslot, List.drop_zero, ← hu,
      State.run_succ hdrive]
    rfl

/-- Settles O11: the drives make the line, on which the master and the slaves run their cycle, and the clock
edge brings the next ports. -/
theorem turnsOfACycleActAtOnce : Obligations.TurnsOfACycleActAtOnce := by
  unfold Obligations.TurnsOfACycleActAtOnce
  intro s hs
  obtain ⟨wire, ack, hline, hrun⟩ := run_allDrives hs
  have hn : turnsPerCycle s.slaves.length = s.slaves.length + (2 * s.slaves.length + 2 + 1) := by
    unfold turnsPerCycle; omega
  rw [hn, hrun, Reference.cycle, ← hline]
  exact run_units rfl

end Sys2Proof.Machine

/-! # The invariants of the slaves and of the master

The events of a slave keep 10_state.md R34 (`Reference.levelEvent_sound`, `Reference.timerExpiry_sound`), and
so do its turns, provided a slave that drives the line sees no edge (`Slave.SoundOnLine`). A step keeps the
invariants because each turn does; runs from reset meet them by induction over the turns. -/

namespace Sys2Proof.Machine

/-! ## Slaves that meet R34, by the operations that their rows are made of -/

/-- What R34 asks of a slave that neither drives the line nor ignores a rise. -/
theorem Slave.sound_of_quiet {v : Slave} (ha : v.acking = false) (hi : v.ignoreRise = false)
    (hd : v.phase ≠ .done)
    (hidle : v.phase = .idle → v.addressAccum = 0 ∧ v.dataAccum = 0 ∧ v.currentBit = 0)
    (haddr : v.phase = .receivingAddress → v.currentBit.toNat ≤ 5)
    (hdata : v.phase = .receivingData → v.currentBit.toNat ≤ 1)
    (hw : v.awaitingTimer = true → 0 < v.tmr) : v.Sound where
  idle_clear hp := by
    obtain ⟨hacc, hdat, hcur⟩ := hidle hp
    exact ⟨hacc, hdat, hcur, ha, hi⟩
  address_bound := haddr
  data_bound := hdata
  acking_where h := absurd (ha.symm.trans h) Bool.false_ne_true
  ignoring_where h := absurd (hi.symm.trans h) Bool.false_ne_true
  awaiting_runs := hw
  done_acks h := absurd h hd

/-- An Idle slave whose frame registers are clear, as every reset leaves it, meets R34. -/
theorem Slave.sound_of_clear {v : Slave} (hp : v.phase = .idle)
    (hclear : v.addressAccum = 0 ∧ v.dataAccum = 0 ∧ v.currentBit = 0 ∧ v.acking = false ∧
      v.ignoreRise = false) (hw : v.awaitingTimer = false) : v.Sound := by
  obtain ⟨hacc, hdat, hcur, hack, hign⟩ := hclear
  exact Slave.sound_of_quiet hack hign (by simp [hp]) (fun _ => ⟨hacc, hdat, hcur⟩) (by simp [hp])
    (by simp [hp]) (by simp [hw])

theorem Slave.atReset_sound (a : BitVec 5) (l : Level) : (Slave.atReset a l).Sound :=
  Slave.sound_of_clear rfl ⟨rfl, rfl, rfl, rfl, rfl⟩ rfl

theorem resetToIdle_sound (c : Cause) (v : Slave) : (resetToIdle c v).Sound :=
  Slave.sound_of_clear rfl ⟨rfl, rfl, rfl, rfl, rfl⟩ rfl

/-- The reset in place with the pulse of a driver failure (42_slave_receiver.md R187). -/
theorem driverFailure_sound (v : Slave) : { resetToIdle .v9 v with halFail := true }.Sound :=
  Slave.sound_of_clear rfl ⟨rfl, rfl, rfl, rfl, rfl⟩ rfl

/-- R34 does not speak of `line_prev`. -/
theorem Slave.Sound.with_linePrev {v : Slave} (h : v.Sound) (l : Level) :
    { v with linePrev := l }.Sound :=
  ⟨h.idle_clear, h.address_bound, h.data_bound, h.acking_where, h.ignoring_where, h.awaiting_runs,
    h.done_acks⟩

theorem Slave.Sound.ne_done {v : Slave} (h : v.Sound) (ha : v.acking = false) : v.phase ≠ .done :=
  fun hp => Bool.false_ne_true (ha.symm.trans (h.done_acks hp))

theorem Slave.Sound.ignoreRise_eq_false {v : Slave} (h : v.Sound) (hp : v.phase ≠ .receivingData) :
    v.ignoreRise = false :=
  Bool.eq_false_iff.mpr fun hi => hp (h.ignoring_where hi).1

/-- A slave that acknowledges its address has received no bit of the data yet. -/
theorem Slave.Sound.currentBit_of_addressAck {v : Slave} (h : v.Sound) (ha : v.acking = true)
    (hp : v.phase = .receivingData) : v.currentBit = 0 := by
  obtain ⟨-, hcur, -⟩ | ⟨hdone, -⟩ := h.acking_where ha
  · exact hcur
  · exact nomatch hp.symm.trans hdone

/-- What R34 asks of a slave that drives the line: (c), with its countdown running. -/
theorem Slave.sound_of_acking {v : Slave} (hi : v.ignoreRise = false) (hw : v.awaitingTimer = true)
    (ht : 0 < v.tmr) (ha : v.acking = true)
    (hwhere : (v.phase = .receivingData ∧ v.currentBit = 0 ∧ v.addressAccum = v.ownAddress) ∨
      (v.phase = .done ∧ v.currentBit = 1)) : v.Sound := by
  obtain ⟨hp, hc, hm⟩ | ⟨hp, hc⟩ := hwhere <;> constructor <;> simp_all

/-- A countdown armed by a slave that does not drive the line (42_slave_receiver.md R167, R172). -/
theorem Slave.Sound.arm {v : Slave} (h : v.Sound) (ha : v.acking = false) {k d : Nat} (hk : 0 < k)
    (hd : 0 < d) : (arm k d v).Sound where
  idle_clear := h.idle_clear
  address_bound := h.address_bound
  data_bound := h.data_bound
  acking_where hc := absurd (ha.symm.trans hc) Bool.false_ne_true
  ignoring_where := h.ignoring_where
  awaiting_runs _ := Nat.mul_pos hd hk
  done_acks := h.done_acks

/-- What every level event writes (42_slave_receiver.md R165). -/
theorem Slave.Sound.levelEvent {v : Slave} (h : v.Sound) : (levelEvent v).Sound where
  idle_clear hp := by
    obtain ⟨hacc, hdat, hcur, hack, -⟩ := h.idle_clear hp
    exact ⟨hacc, hdat, hcur, hack, rfl⟩
  address_bound := h.address_bound
  data_bound := h.data_bound
  acking_where := h.acking_where
  ignoring_where hc := absurd hc Bool.false_ne_true
  awaiting_runs := h.awaiting_runs
  done_acks := h.done_acks

/-- An index that is within its bound, and not at it, is counted within it. -/
theorem toNat_succ_le_of_ne {c b : BitVec 3} (hc : c.toNat ≤ b.toNat) (hne : c ≠ b) :
    (c + 1).toNat ≤ b.toNat := by
  bv_omega

/-! ## A slave's events keep R34 -/

/-- A falling edge at a slave that does not drive the line. -/
theorem Reference.levelEvent_low_sound {k : Nat} {v : Slave} (hk : 0 < k) (drvFault : Bool)
    (h : v.Sound) (ha : v.acking = false) : (Reference.levelEvent k drvFault .low v).Sound := by
  have hw : (Machine.levelEvent v).Sound := h.levelEvent
  cases hp : v.phase with
  | idle =>
    simp only [Reference.levelEvent, hp]
    split_ifs
    · exact resetToIdle_sound ..
    · exact hw.arm ha hk (by decide)
  | receivingAddress =>
    simp only [Reference.levelEvent, hp]
    split_ifs with hwait hfull hmatch
    · exact resetToIdle_sound ..
    · exact hw.arm ha hk (by decide)
    · exact resetToIdle_sound ..
    · exact driverFailure_sound _
    · exact Slave.sound_of_acking rfl rfl (Nat.mul_pos (by decide) hk) rfl
        (.inl ⟨rfl, rfl, not_not.mp hmatch⟩)
  | receivingData =>
    simp only [Reference.levelEvent, hp]
    split_ifs with hwait hfull
    · exact resetToIdle_sound ..
    · exact hw.arm ha hk (by decide)
    · exact driverFailure_sound _
    · exact Slave.sound_of_acking rfl rfl (Nat.mul_pos (by decide) hk) rfl
        (.inr ⟨rfl, not_not.mp hfull⟩)
  | done => exact absurd hp (h.ne_done ha)

/-- A rising edge at a slave that does not drive the line. -/
theorem Reference.levelEvent_high_sound {k : Nat} {v : Slave} (drvFault : Bool)
    (h : v.Sound) (ha : v.acking = false) : (Reference.levelEvent k drvFault .high v).Sound := by
  by_cases hi : v.ignoreRise = true
  · simpa only [Reference.levelEvent, hi, if_true] using h.levelEvent
  cases hp : v.phase with
  | idle =>
    simp only [Reference.levelEvent, hp, if_neg hi]
    split_ifs
    · exact resetToIdle_sound ..
    · exact resetToIdle_sound ..
    · exact Slave.sound_of_quiet ha rfl nofun nofun (fun _ => Nat.zero_le 5) nofun h.awaiting_runs
  | receivingAddress =>
    simp only [Reference.levelEvent, hp, if_neg hi]
    have hbit (hfull : v.currentBit ≠ 5) (acc : BitVec 5) :
        (countBit { Machine.levelEvent v with addressAccum := acc }).Sound :=
      Slave.sound_of_quiet ha rfl (h.ne_done ha) (by simp [hp])
        (fun _ => toNat_succ_le_of_ne (h.address_bound hp) hfull) (by simp [hp]) h.awaiting_runs
    split_ifs with hfull
    · exact resetToIdle_sound ..
    · exact hbit hfull v.addressAccum
    · exact resetToIdle_sound ..
    · exact hbit hfull _
  | receivingData =>
    simp only [Reference.levelEvent, hp, if_neg hi]
    have hbit (hfull : v.currentBit ≠ 1) (acc : BitVec 1) :
        (countBit { Machine.levelEvent v with dataAccum := acc }).Sound :=
      Slave.sound_of_quiet ha rfl (h.ne_done ha) (by simp [hp]) (by simp [hp])
        (fun _ => toNat_succ_le_of_ne (h.data_bound hp) hfull) h.awaiting_runs
    split_ifs with hfull
    · exact resetToIdle_sound ..
    · exact hbit hfull v.dataAccum
    · exact resetToIdle_sound ..
    · exact hbit hfull _
  | done => exact absurd hp (h.ne_done ha)

/-- An edge at a slave that does not drive the line keeps R34. -/
theorem Reference.levelEvent_sound {k : Nat} {v : Slave} (hk : 0 < k) (drvFault : Bool) (line : Level)
    (h : v.Sound) (ha : v.acking = false) : (Reference.levelEvent k drvFault line v).Sound := by
  cases line with
  | low => exact Reference.levelEvent_low_sound hk drvFault h ha
  | high => exact Reference.levelEvent_high_sound drvFault h ha

@[simp] theorem Reference.levelEvent_linePrev (k : Nat) (drvFault : Bool) (line : Level) (v : Slave) :
    (Reference.levelEvent k drvFault line v).linePrev = v.linePrev := by
  simp only [Reference.levelEvent]
  repeat' split
  all_goals rfl

/-- No rise makes a slave drive the line. -/
theorem Reference.levelEvent_high_acking (k : Nat) (drvFault : Bool) {v : Slave} (ha : v.acking = false) :
    (Reference.levelEvent k drvFault .high v).acking = false := by
  simp only [Reference.levelEvent]
  repeat' split
  all_goals simp [ha]

/-- An expiry ends every drive of the slave (42_slave_receiver.md R184 to R186). -/
theorem Reference.timerExpiry_acking (drvFault : Bool) (line : Level) (v : Slave) :
    (Reference.timerExpiry drvFault line v).acking = false := by
  simp only [Reference.timerExpiry]
  repeat' split
  all_goals simp_all

/-- An expiry keeps R34; it sets `ignore_rise` only at the end of an address Ack (42_slave_receiver.md
R184), where (c) has `current_bit = 0`. -/
theorem Reference.timerExpiry_sound (drvFault : Bool) (line : Level) {v : Slave} (h : v.Sound) :
    (Reference.timerExpiry drvFault line (tick v)).Sound := by
  by_cases hf : ((tick v).acking && drvFault) = true
  · simp only [Reference.timerExpiry, if_pos hf]
    exact driverFailure_sound _
  cases hp : (tick v).phase with
  | idle =>
    simp only [Reference.timerExpiry, if_neg hf, hp]
    obtain ⟨hacc, hdat, hcur, -, hign⟩ := h.idle_clear hp
    exact Slave.sound_of_clear hp ⟨hacc, hdat, hcur, rfl, hign⟩ rfl
  | receivingAddress =>
    simp only [Reference.timerExpiry, if_neg hf, hp]
    have hign : v.ignoreRise = false := h.ignoreRise_eq_false fun hc => nomatch hp.symm.trans hc
    exact Slave.sound_of_quiet rfl hign (fun hc => nomatch hp.symm.trans hc)
      (fun hc => nomatch hp.symm.trans hc) h.address_bound h.data_bound nofun
  | receivingData =>
    simp only [Reference.timerExpiry, if_neg hf, hp]
    split_ifs with ha
    · have hcur : v.currentBit = 0 := h.currentBit_of_addressAck ha hp
      exact ⟨fun hc => (nomatch hp.symm.trans hc), h.address_bound, h.data_bound, nofun,
        fun _ => ⟨hp, hcur, rfl⟩, nofun, fun hc => (nomatch hp.symm.trans hc)⟩
    · exact ⟨h.idle_clear, h.address_bound, h.data_bound, fun hc => absurd hc ha, h.ignoring_where,
        nofun, h.done_acks⟩
  | done =>
    simp only [Reference.timerExpiry, if_neg hf, hp]
    exact resetToIdle_sound ..

/-- A countdown that does not expire keeps R34. -/
theorem Slave.Sound.tick {v : Slave} (h : v.Sound) (ht : v.tmr ≠ 1) : (tick v).Sound where
  idle_clear := h.idle_clear
  address_bound := h.address_bound
  data_bound := h.data_bound
  acking_where := h.acking_where
  ignoring_where := h.ignoring_where
  awaiting_runs hw := by
    have : 0 < v.tmr := h.awaiting_runs hw
    simp only [tick_tmr]
    omega
  done_acks := h.done_acks

/-! ## A slave's turns on the line that it drives -/

/-- After the drives of a cycle: the slave is sound, and if it drives the line it sees no edge, since the line
was Low a cycle ago and is Low now. -/
def Slave.SoundOnLine (line : Level) (v : Slave) : Prop :=
  v.Sound ∧ (v.acking = true → v.linePrev = .low ∧ line = .low)

theorem Slave.soundOnLine_of_not_acking {v : Slave} {line : Level} (h : v.Sound) (ha : v.acking = false) :
    v.SoundOnLine line :=
  ⟨h, fun hc => absurd (ha.symm.trans hc) Bool.false_ne_true⟩

theorem timerTurn_soundOnLine (p : SlavePins) {line : Level} {v : Slave} (h : v.SoundOnLine line) :
    (timerTurn p line v).SoundOnLine line := by
  obtain ⟨hsound, hline⟩ := h
  unfold timerTurn
  split_ifs with hr ht
  · exact Slave.soundOnLine_of_not_acking (Slave.atReset_sound ..) rfl
  · exact Slave.soundOnLine_of_not_acking (Reference.timerExpiry_sound _ _ hsound)
      (Reference.timerExpiry_acking ..)
  · exact ⟨hsound.tick ht, hline⟩

/-- The line's clause says that an edge finds the slave not driving; a slave that then begins to drive has
seen a fall. -/
theorem levelTurn_soundOnLine {k : Nat} (hk : 0 < k) (p : SlavePins) {line : Level} {v : Slave}
    (h : v.SoundOnLine line) : (levelTurn k p line v).SoundOnLine line := by
  obtain ⟨hsound, hline⟩ := h
  have hsound' := hsound.with_linePrev line
  unfold levelTurn
  split_ifs with hedge
  · have ha : v.acking = false := by
      by_contra hc
      obtain ⟨hprev, hlow⟩ := hline (by simpa using hc)
      exact hedge.2 (hlow.trans hprev.symm)
    refine ⟨Reference.levelEvent_sound hk _ _ hsound' ha, fun hc => ?_⟩
    cases line with
    | low => simp
    | high => simp [Reference.levelEvent_high_acking, ha] at hc
  · exact ⟨hsound', fun hc => ⟨(hline hc).2, (hline hc).2⟩⟩

/-! ## Every turn keeps the slaves' invariants -/

/-- After all drives, the slaves' invariant speaks of each slave alone. -/
theorem State.slavesSound_iff {s : State} (hd : ∀ j, s.slot.drivenBy j = true) :
    s.SlavesSound ↔ ∀ v ∈ s.slaves, v.SoundOnLine s.wire := by
  simp only [State.SlavesSound, Slave.SoundOnLine, hd, true_imp_iff, List.mem_iff_getElem?,
    forall_exists_index]
  exact forall_comm

/-- The turn after slave `i`'s drive follows the drives of the slaves up to `i`. -/
theorem Slot.le_of_drivenBy_next {n i j : Nat} (hj : j < n)
    (h : ((Slot.ackDrive i).next n).drivenBy j = true) : j ≤ i := by
  simp only [Slot.next] at h
  split_ifs at h
  · exact Nat.lt_succ_iff.mp (of_decide_eq_true h)
  · omega

/-- A slave's drive of the line leaves it Low when the slave acknowledges. -/
theorem State.SlavesSound.ackDrive {s : State} {i : Nat} (h : s.SlavesSound)
    (hs : s.slot = .ackDrive i) : (s.pull (s.slaves[i]?.any Slave.driveLow)).advance.SlavesSound := by
  rintro j v (hv : s.slaves[j]? = some v)
  obtain ⟨hsound, hline⟩ := h j v hv
  refine ⟨hsound, fun ha => ⟨(hline ha).1, fun hdriven => ?_⟩⟩
  have hjn : j < s.slaves.length := (List.getElem?_eq_some_iff.mp hv).1
  have hji : j ≤ i := by
    simp only [State.advance_slot, State.pull_slot, hs] at hdriven
    exact Slot.le_of_drivenBy_next hjn hdriven
  obtain rfl | hlt := Nat.eq_or_lt_of_le hji
  · simp [hv, Slave.driveLow, ha]
  · have hlow : s.wire = .low := (hline ha).2 (by simpa [hs, Slot.drivenBy] using hlt)
    simp [hlow]

/-- After the drives, a turn of no slave keeps the invariant when it leaves a Low line Low. -/
theorem State.SlavesSound.of_slaves_eq {s t : State} (h : s.SlavesSound)
    (hd : ∀ j, s.slot.drivenBy j = true) (hslaves : t.slaves = s.slaves)
    (hwire : s.wire = .low → t.wire = .low) : t.SlavesSound := by
  intro j v hv
  obtain ⟨hsound, hline⟩ := h j v (hslaves ▸ hv)
  exact ⟨hsound, fun ha => ⟨(hline ha).1, fun _ => hwire ((hline ha).2 (hd j))⟩⟩

/-- An operation of the slave whose turn it is, after the drives. -/
theorem State.SlavesSound.onUnit {s : State} {f : Slave → Slave} (h : s.SlavesSound)
    (hd : ∀ j, s.slot.drivenBy j = true) (hn : ∀ n j, (s.slot.next n).drivenBy j = true)
    (hf : ∀ v, v.SoundOnLine s.wire → (f v).SoundOnLine s.wire) : (s.onUnit f).advance.SlavesSound :=
  (State.slavesSound_iff (hn _)).mpr (State.onUnit_forall ((State.slavesSound_iff hd).mp h) hf)

/-- In the first turn of a cycle no slave has driven the line yet. -/
theorem Slot.drivenBy_first {n j : Nat} (hj : j < n) : (Slot.first n).drivenBy j = false := by
  simp [Slot.first, Nat.zero_lt_of_lt hj, Slot.drivenBy]

/-- In the first turn of a cycle the clause about the line speaks of the cycle before only. -/
theorem State.slavesSound_of_first {s : State} (hs : s.slot = Slot.first s.slaves.length)
    (h : ∀ v ∈ s.slaves, v.Sound ∧ (v.acking = true → v.linePrev = .low)) : s.SlavesSound := by
  intro j v hv
  obtain ⟨hsound, hprev⟩ := h v (List.mem_of_getElem? hv)
  have hj : s.slot.drivenBy j = false := hs ▸ Slot.drivenBy_first (List.getElem?_eq_some_iff.mp hv).1
  exact ⟨hsound, fun ha => ⟨hprev ha, fun hc => absurd (hj.symm.trans hc) Bool.false_ne_true⟩⟩

/-- The ports of the next cycle are among those listed, or idle. -/
theorem State.wiredAnd_clockEdge {s : State} (h : s.wiredAnd) : s.clockEdge.wiredAnd := by
  obtain ⟨-, hstim⟩ := h
  refine ⟨?_, fun p hp => hstim p (List.mem_of_mem_tail hp)⟩
  rw [State.clockEdge_pins]
  cases hl : s.stim with
  | nil => exact nofun
  | cons p rest => exact hstim p (by simp [hl])

/-- Settles O42, turn by turn: the drives make the line Low for a slave that acknowledges, so that in its own
turns it sees no edge, and these turns keep R34. -/
theorem slaveInvariantsKept : Obligations.SlaveInvariantsKept := by
  unfold Obligations.SlaveInvariantsKept
  intro s t hwired hsound h
  have hbus : s.busIn = s.wire := State.busIn_of_not_forced hwired.1
  cases hs : s.slot with
  | ackDrive j =>
    rw [step_ackDrive hs] at h
    cases h
    exact ⟨hwired, hsound.ackDrive hs⟩
  | symbolDrive =>
    obtain ⟨ack, he⟩ := step_symbolDrive hs
    rw [he] at h
    cases h
    exact ⟨hwired, hsound.of_slaves_eq (by simp [hs, Slot.drivenBy]) rfl fun hlow => by simp [hlow]⟩
  | masterRow =>
    rw [step_masterRow hs] at h
    cases h
    exact ⟨hwired, hsound.of_slaves_eq (by simp [hs, Slot.drivenBy]) rfl id⟩
  | timer j =>
    rw [step_timer hs, hbus] at h
    cases h
    exact ⟨hwired, hsound.onUnit (by simp [hs, Slot.drivenBy])
      (by simp [hs, Slot.next, Slot.drivenBy]) fun v => timerTurn_soundOnLine _⟩
  | level j =>
    rw [step_level hs, hbus] at h
    cases h
    exact ⟨hwired, hsound.onUnit (by simp [hs, Slot.drivenBy])
      (by intro n i; rw [hs, Slot.next]; split <;> rfl) fun v => levelTurn_soundOnLine s.k_pos _⟩
  | clock =>
    rw [step_clock hs] at h
    cases h
    have hall := (State.slavesSound_iff (by simp [hs, Slot.drivenBy])).mp hsound
    exact ⟨State.wiredAnd_clockEdge hwired,
      State.slavesSound_of_first (by simp [hs, Slot.next])
        fun v hv => ⟨(hall v hv).1, fun ha => ((hall v hv).2 ha).1⟩⟩

/-! ## Runs from reset -/

/-- What every step keeps holds after any run. -/
theorem State.run_invariant {P : State → Prop} (hstep : ∀ s t, P s → step s = .next t → P t)
    {n : Nat} : ∀ {s t : State}, P s → s.run n = .next t → P t := by
  induction n with
  | zero =>
    rintro s t hs h
    cases h
    exact hs
  | succ n ih =>
    intro s t hs h
    cases hu : step s with
    | next u => exact ih (hstep s u hs hu) (State.run_succ hu n ▸ h)
    | fault r => exact nomatch r
    | refused r =>
      have hc : Host.Core.step core s = .refused r := hu
      simp [State.run, Host.Core.run, hc] at h

/-- The slaves of a system just after reset are clear and drive nothing. -/
theorem State.fresh_slavesSound (params : Params) (owns : List (BitVec 5)) (pins : Pins)
    (stim : List Pins) : (State.fresh params owns pins stim).SlavesSound := by
  refine State.slavesSound_of_first (by simp [State.fresh]) fun v hv => ?_
  obtain ⟨a, -, rfl⟩ := List.mem_map.mp hv
  exact ⟨Slave.atReset_sound .., nofun⟩

/-- Settles O44, by induction over the turns with the invariant of O42. -/
theorem reachableSlavesAreSound : Obligations.ReachableSlavesAreSound := by
  unfold Obligations.ReachableSlavesAreSound
  intro params owns pins stim n t hwired hrun v hv
  obtain ⟨-, hsound⟩ := State.run_invariant (P := fun s => s.wiredAnd ∧ s.SlavesSound)
    (fun s t hs => slaveInvariantsKept s t hs.1 hs.2)
    ⟨hwired, State.fresh_slavesSound params owns pins stim⟩ hrun
  obtain ⟨j, hj⟩ := List.getElem?_of_mem hv
  exact (hsound j v hj).1

/-! ## The master's control point -/

/-- Up to the last index of a frame, START lasts 20 units and every other symbol 10 (40_symbol_codec.md
R111). -/
theorem totLen_symbolAt {m : Master} (h : m.idx.toNat ≤ 8) :
    totLen (symbolAt m) = if m.idx = 0 then 20 else 10 := by
  have hbit (b : Bool) : totLen (bitSym b) = 10 := by cases b <;> rfl
  have hackq : totLen .ackq = 10 := rfl
  have haddr : Config.addressN = 5 := rfl
  have hdata : Config.dataN = 1 := rfl
  have hqa : idxQa = 6 := rfl
  have hqd : idxQd = 8 := rfl
  by_cases h0 : m.idx = 0
  · simp [symbolAt, h0, totLen, lowLen, highLen]
  · have hne : m.idx.toNat ≠ 0 := fun hc => h0 (BitVec.eq_of_toNat_eq hc)
    simp only [symbolAt, apply_ite totLen, hbit, hackq, if_neg hne, if_neg h0]
    split_ifs <;> omega

/-- The bound of `m_t` is the length of the current symbol. -/
theorem Master.sound_iff {k : Nat} {m : Master} : m.Sound k ↔
    m.idx.toNat ≤ 8 ∧ m.t < totLen (symbolAt m) * k ∧ m.result.toNat ≤ 4 := by
  have hlen (h : m.idx.toNat ≤ 8) :
      totLen (symbolAt m) * k = if m.idx = 0 then 20 * k else 10 * k := by
    rw [totLen_symbolAt h, ite_mul]
  constructor
  · rintro ⟨hi, ht, hr⟩
    exact ⟨hi, hlen hi ▸ ht, hr⟩
  · rintro ⟨hi, ht, hr⟩
    exact ⟨hi, hlen hi ▸ ht, hr⟩

/-- The first cycle of a symbol. -/
theorem Master.sound_of_t_zero {k : Nat} {m : Master} (hk : 0 < k) (ht : m.t = 0)
    (hi : m.idx.toNat ≤ 8) (hr : m.result.toNat ≤ 4) : m.Sound k where
  idx_bound := hi
  t_bound := by split_ifs <;> omega
  result_code := hr

/-- A master that ends its frame, or rejects a request, keeps its control point. -/
theorem Master.Sound.with_result {k : Nat} {m : Master} (h : m.Sound k) (busy done : Bool)
    {r : BitVec 3} (hr : r.toNat ≤ 4) : { m with busy := busy, result := r, done := done }.Sound k :=
  ⟨h.idx_bound, h.t_bound, hr⟩

/-- A cycle that is not the last of its symbol is counted. -/
theorem Master.Sound.countCycle {k : Nat} {m : Master} (h : m.Sound k)
    (ht : m.t + 1 < totLen (symbolAt m) * k) : (countCycle k { m with done := false }).Sound k := by
  obtain ⟨hi, -, hr⟩ := Master.sound_iff.mp h
  have hlen : totLen (symbolAt m) * k ≤ 20 * k := Nat.mul_le_mul_right k <| by
    rw [totLen_symbolAt hi]; split_ifs <;> decide
  rw [countCycle_of_lt (m := { m with done := false }) (ht.trans_le hlen)]
  exact Master.sound_iff.mpr ⟨hi, ht, hr⟩

/-- A cycle of the master keeps its control point one that a frame has. The sample at `5K` is not the last
cycle of ACKQ, and the index is counted below 8 only. -/
theorem Reference.masterCycle_sound {k : Nat} {m : Master} (hk : 0 < k) (p : Pins) (line : Level)
    (h : m.Sound k) : (Reference.masterCycle k p line m).Sound k := by
  obtain ⟨hi, ht, hr⟩ := Master.sound_iff.mp h
  unfold Reference.masterCycle
  split
  case isTrue => exact Master.sound_of_t_zero hk rfl (Nat.zero_le 8) (Nat.zero_le 4)
  split
  case isFalse =>
    split_ifs with hstart hvalid
    · exact Master.sound_of_t_zero hk rfl (Nat.zero_le 8) hr
    · exact h.with_result _ _ (by decide)
    · exact h.with_result _ _ hr
  split
  case isTrue => exact h.with_result _ _ (by decide)
  split
  case isTrue hsample =>
    obtain ⟨hidx, hm⟩ := hsample
    cases line with
    | high => exact h.with_result _ _ (by split <;> decide)
    | low =>
      have hlen : totLen (symbolAt m) = 10 := by
        rw [totLen_symbolAt hi, if_neg fun h0 => by simp [h0] at hidx]
      exact h.countCycle (by rw [hlen]; omega)
  split_ifs with hend hlast
  · exact h.with_result _ _ (by decide)
  · have hnext : (m.idx + 1).toNat ≤ 8 := by bv_omega
    exact Master.sound_of_t_zero hk rfl hnext hr
  · exact h.countCycle (by omega)

/-- A step leaves `K`, and leaves the master or runs its cycle. -/
theorem step_master {s t : State} (h : step s = .next t) :
    t.k = s.k ∧
      (t.master = s.master ∨ t.master = Reference.masterCycle s.k s.pins s.busIn s.master) := by
  cases hs : s.slot with
  | ackDrive j =>
    rw [step_ackDrive hs] at h
    cases h
    exact ⟨rfl, .inl rfl⟩
  | symbolDrive =>
    obtain ⟨ack, he⟩ := step_symbolDrive hs
    rw [he] at h
    cases h
    exact ⟨rfl, .inl rfl⟩
  | masterRow =>
    rw [step_masterRow hs] at h
    cases h
    exact ⟨rfl, .inr rfl⟩
  | timer j =>
    rw [step_timer hs] at h
    cases h
    exact ⟨rfl, .inl rfl⟩
  | level j =>
    rw [step_level hs] at h
    cases h
    exact ⟨rfl, .inl rfl⟩
  | clock =>
    rw [step_clock hs] at h
    cases h
    exact ⟨rfl, .inl rfl⟩

/-- Settles O45: only the master's turn changes the master, and it runs one cycle of it. -/
theorem masterInvariantKept : Obligations.MasterInvariantKept := by
  unfold Obligations.MasterInvariantKept
  intro s t hsound h
  obtain ⟨hk, hm | hm⟩ := step_master h <;> rw [hk, hm]
  · exact hsound
  · exact Reference.masterCycle_sound s.k_pos _ _ hsound

/-! ## The reset state -/

/-- The reset state is the fresh system with `K = 1` and one slave (logs 2 and 3). -/
theorem State.reset_eq_fresh : State.reset = State.fresh ⟨0⟩ [0x0b#5] .idle [] := rfl

/-- Settles O43: the slaves by the invariant of every fresh system, the master and the counters by their
zeros. -/
theorem invariantsHoldAtReset : Obligations.InvariantsHoldAtReset := by
  unfold Obligations.InvariantsHoldAtReset
  refine ⟨⟨nofun, nofun⟩, ?_, ?_, Nat.two_pow_pos _, ?_⟩
  · rw [State.reset_eq_fresh]
    exact State.fresh_slavesSound _ _ _ _
  · exact Master.sound_of_t_zero (State.k_pos _) rfl (Nat.zero_le 8) (Nat.zero_le 4)
  · intro v hv
    obtain rfl : v = Slave.atReset 0x0b#5 .high := List.mem_singleton.mp hv
    exact Nat.zero_le _

end Sys2Proof.Machine

/-! # What each turn leaves unchanged

The frame of a step says whose turn changes a unit (`slot_of_slave_changed`, `slot_of_master_changed`).
What that turn does then says when `rx_data`, `rx_valid` and `m_result` change (`timerTurn_rx_cases`,
`Reference.masterCycle_result_cases`). -/

namespace Sys2Proof.Machine

/-! ## The line after its drivers -/

/-- Settles O16, by the turns of the drives: only the line, the ack and the turn differ after them. -/
theorem lineIsTheWiredAndOfItsDrivers : Obligations.LineIsTheWiredAndOfItsDrivers := by
  unfold Obligations.LineIsTheWiredAndOfItsDrivers
  intro s hs
  obtain ⟨wire, ack, hline, hrun⟩ := run_allDrives hs
  exact ⟨_, hrun 0, rfl, hline, rfl, rfl, rfl, rfl⟩

/-! ## The slaves of the state after a turn -/

/-- An operation in a turn of slave `i` leaves every other slave. -/
theorem State.onUnit_getElem?_of_ne {f : Slave → Slave} {s : State} {i j : Nat}
    (hs : s.slot = .timer i ∨ s.slot = .level i) (hij : i ≠ j) :
    (s.onUnit f).slaves[j]? = s.slaves[j]? := by
  rw [State.onUnit_getElem?, (State.unitPins_of_slot hs).1, if_neg hij]

/-- An operation in a turn of slave `j`, by what it makes of that slave. -/
theorem State.onUnit_getElem?_of_slot {f : Slave → Slave} {s : State} {j : Nat}
    (hs : s.slot = .timer j ∨ s.slot = .level j) :
    (s.onUnit f).slaves[j]? = s.slaves[j]?.map f := by
  rw [State.onUnit_getElem?, if_pos (State.unitPins_of_slot hs).1]

/-- The slave whose timer turn it is, after it. -/
theorem step_timer_getElem? {s t : State} {j : Nat} (hs : s.slot = .timer j) (h : step s = .next t) :
    t.slaves[j]? = s.slaves[j]?.map (timerTurn (s.pins.slave j) s.busIn) := by
  rw [step_timer hs] at h
  cases h
  exact State.onUnit_getElem?_of_slot (.inl hs)

/-- The slave whose level turn it is, after it. -/
theorem step_level_getElem? {s t : State} {j : Nat} (hs : s.slot = .level j) (h : step s = .next t) :
    t.slaves[j]? = s.slaves[j]?.map (levelTurn s.k (s.pins.slave j) s.busIn) := by
  rw [step_level hs] at h
  cases h
  exact State.onUnit_getElem?_of_slot (.inr hs)

/-- Settles O51: a slave's turn is a function of its registers, its ports, the line and `K`. -/
theorem slaveSeesOthersOnlyThroughTheLine : Obligations.SlaveSeesOthersOnlyThroughTheLine := by
  unfold Obligations.SlaveSeesOthersOnlyThroughTheLine
  rintro s1 s2 t1 t2 j hslot (ht | hl) hslave hpins hline hk h1 h2
  · rw [step_timer_getElem? ht h1, step_timer_getElem? (hslot ▸ ht) h2, hslave, hpins, hline]
  · rw [step_level_getElem? hl h1, step_level_getElem? (hslot ▸ hl) h2, hslave, hpins, hline, hk]

/-! ## The frame of a step -/

/-- Settles O50, turn by turn: the drives and the clock edge change no register, the master's turn the master,
and a slave's turns that slave. -/
theorem turnsTouchOnlyTheirOwnUnit : Obligations.TurnsTouchOnlyTheirOwnUnit := by
  unfold Obligations.TurnsTouchOnlyTheirOwnUnit
  intro s t h
  cases hs : s.slot with
  | ackDrive i =>
    rw [step_ackDrive hs] at h
    cases h
    exact ⟨rfl, rfl, fun _ => rfl, fun _ => ⟨rfl, rfl⟩, fun _ _ _ => rfl⟩
  | symbolDrive =>
    obtain ⟨ack, he⟩ := step_symbolDrive hs
    rw [he] at h
    cases h
    exact ⟨rfl, rfl, fun _ => rfl, fun _ => ⟨rfl, rfl⟩, fun _ _ _ => rfl⟩
  | masterRow =>
    rw [step_masterRow hs] at h
    cases h
    exact ⟨rfl, rfl, fun hm => absurd rfl hm, fun _ => ⟨rfl, rfl⟩, fun _ _ _ => rfl⟩
  | timer i =>
    rw [step_timer hs] at h
    cases h
    exact ⟨rfl, State.onUnit_length .., fun _ => rfl, fun _ => ⟨rfl, rfl⟩,
      fun j hj _ => State.onUnit_getElem?_of_ne (.inl hs) fun hij => hj (congrArg Slot.timer hij)⟩
  | level i =>
    rw [step_level hs] at h
    cases h
    exact ⟨rfl, State.onUnit_length .., fun _ => rfl, fun _ => ⟨rfl, rfl⟩,
      fun j _ hj => State.onUnit_getElem?_of_ne (.inr hs) fun hij => hj (congrArg Slot.level hij)⟩
  | clock =>
    rw [step_clock hs] at h
    cases h
    exact ⟨rfl, rfl, fun _ => rfl, fun hc => absurd rfl hc, fun _ _ _ => rfl⟩

/-- A slave that a step has changed had its own turn. -/
theorem slot_of_slave_changed {s t : State} {j : Nat} (h : step s = .next t)
    (hne : t.slaves[j]? ≠ s.slaves[j]?) : s.slot = .timer j ∨ s.slot = .level j := by
  obtain ⟨-, -, -, -, hslaves⟩ := turnsTouchOnlyTheirOwnUnit s t h
  by_contra hc
  obtain ⟨ht, hl⟩ := not_or.mp hc
  exact hne (hslaves j ht hl)

/-- A master that a step has changed had its own turn. -/
theorem slot_of_master_changed {s t : State} (h : step s = .next t) (hne : t.master ≠ s.master) :
    s.slot = .masterRow := by
  obtain ⟨-, -, hmaster, -⟩ := turnsTouchOnlyTheirOwnUnit s t h
  by_contra hc
  exact hne (hmaster hc)

/-! ## The master's result -/

/-- A cycle of the master out of reset keeps `m_result`, or finishes (41_master_transmitter.md R142). -/
theorem Reference.masterCycle_result_cases {p : Pins} (hr : ¬ p.mRst = true) (k : Nat) (line : Level)
    (m : Master) :
    (Reference.masterCycle k p line m).result = m.result ∨
      ((Reference.masterCycle k p line m).done = true ∧
        (Reference.masterCycle k p line m).busy = false) := by
  unfold Reference.masterCycle
  simp only [if_neg hr]
  by_cases hbusy : m.busy = true
  · simp only [if_pos hbusy]
    split_ifs
    · exact .inr ⟨rfl, rfl⟩
    · cases line with
      | low => exact .inl rfl
      | high => exact .inr ⟨rfl, rfl⟩
    · cases line with
      | low => exact .inl rfl
      | high => exact .inr ⟨rfl, rfl⟩
    · exact .inr ⟨rfl, rfl⟩
    · exact .inl rfl
    · exact .inl rfl
  · simp only [if_neg hbusy]
    split_ifs
    · exact .inl rfl
    · exact .inr ⟨rfl, Bool.eq_false_iff.mpr hbusy⟩
    · exact .inl rfl

/-- Settles O49: only the master's turn changes it, and its cycle changes `m_result` by a finish or a reset. -/
theorem resultHeldUntilTheNextFinish : Obligations.ResultHeldUntilTheNextFinish := by
  unfold Obligations.ResultHeldUntilTheNextFinish
  intro s t h hne
  have hs : s.slot = .masterRow := slot_of_master_changed h fun hm => hne (congrArg Master.result hm)
  refine ⟨hs, ?_⟩
  rw [step_masterRow hs] at h
  cases h
  by_cases hr : s.pins.mRst = true
  · exact .inl ⟨hr, if_pos hr⟩
  · exact .inr ((Reference.masterCycle_result_cases hr _ _ _).resolve_left hne)

/-! ## A slave's delivery -/

/-- The slave's delivery at the end of a data Ack hold whose driver does not fail (42_slave_receiver.md R185,
R189): `w` is what it makes of `v`. -/
def Slave.Delivers (drvFault : Bool) (v w : Slave) : Prop :=
  ¬ (drvFault = true ∧ v.acking = true) ∧ w.rxValid = true ∧ w.rxData = v.dataAccum ∧
    w.phase = .idle ∧ w.acking = false

@[simp] theorem Reference.levelEvent_rxData (k : Nat) (drvFault : Bool) (line : Level) (v : Slave) :
    (Reference.levelEvent k drvFault line v).rxData = v.rxData := by
  simp only [Reference.levelEvent]
  repeat' split
  all_goals rfl

@[simp] theorem Reference.levelEvent_rxValid (k : Nat) (drvFault : Bool) (line : Level) (v : Slave) :
    (Reference.levelEvent k drvFault line v).rxValid = v.rxValid := by
  simp only [Reference.levelEvent]
  repeat' split
  all_goals rfl

theorem levelTurn_rxData (k : Nat) (p : SlavePins) (line : Level) (v : Slave) :
    (levelTurn k p line v).rxData = v.rxData := by
  unfold levelTurn
  split <;> simp

theorem levelTurn_rxValid (k : Nat) (p : SlavePins) (line : Level) (v : Slave) :
    (levelTurn k p line v).rxValid = v.rxValid := by
  unfold levelTurn
  split <;> simp

/-- An expiry leaves `rx_data` and `rx_valid`, or is that of Done and delivers. -/
theorem Reference.timerExpiry_rx_cases (drvFault : Bool) (line : Level) (v : Slave) :
    let w := Reference.timerExpiry drvFault line v
    (w.rxData = v.rxData ∧ w.rxValid = v.rxValid) ∨ (v.phase = .done ∧ v.Delivers drvFault w) := by
  by_cases hf : (v.acking && drvFault) = true
  · simp only [Reference.timerExpiry, if_pos hf]
    exact .inl ⟨rfl, rfl⟩
  simp only [Reference.timerExpiry, if_neg hf]
  cases hp : v.phase with
  | idle => exact .inl ⟨rfl, rfl⟩
  | receivingAddress => exact .inl ⟨rfl, rfl⟩
  | receivingData =>
    dsimp only
    split_ifs <;> exact .inl ⟨rfl, rfl⟩
  | done =>
    have hworks : ¬ (drvFault = true ∧ v.acking = true) := by simpa [and_comm] using hf
    exact .inr ⟨rfl, hworks, rfl, rfl, rfl, rfl⟩

/-- A timer turn out of reset keeps `rx_data` with `rx_valid` at 0, or is the expiry of Done and delivers. -/
theorem timerTurn_rx_cases {p : SlavePins} (hr : ¬ p.rst = true) (line : Level) (v : Slave) :
    let w := timerTurn p line v
    (w.rxData = v.rxData ∧ w.rxValid = false) ∨
      (v.phase = .done ∧ v.tmr = 1 ∧ v.Delivers p.drvFault w) := by
  simp only [timerTurn, if_neg hr]
  split_ifs with ht
  · obtain hkeep | ⟨hp, hdelivers⟩ := Reference.timerExpiry_rx_cases p.drvFault line (tick v)
    · exact .inl hkeep
    · exact .inr ⟨hp, ht, hdelivers⟩
  · exact .inl ⟨rfl, rfl⟩

/-- Settles O48: only the slave's own turns change it, its level turn leaves both ports, and its timer turn
delivers in Done only. -/
theorem deliveryOnlyAfterTheDataAck : Obligations.DeliveryOnlyAfterTheDataAck := by
  unfold Obligations.DeliveryOnlyAfterTheDataAck
  intro s t j v w hv hw h hchanged
  have hkept : ¬ (w.rxData = v.rxData ∧ w.rxValid = v.rxValid) := by
    rintro ⟨hdata, hvalid⟩
    obtain hne | ⟨hlow, hhigh⟩ := hchanged
    · exact hne hdata
    · exact Bool.false_ne_true (hlow.symm.trans (hvalid.symm.trans hhigh))
  have hmoved : t.slaves[j]? ≠ s.slaves[j]? := by
    intro heq
    obtain rfl : w = v := Option.some.inj (hw.symm.trans (heq.trans hv))
    exact hkept ⟨rfl, rfl⟩
  obtain hs | hs := slot_of_slave_changed h hmoved
  · refine ⟨hs, or_iff_not_imp_left.mpr fun hr => ?_⟩
    obtain rfl : timerTurn (s.pins.slave j) s.busIn v = w := by
      simpa [hv, hw] using (step_timer_getElem? hs h).symm
    obtain ⟨hdata, hvalid⟩ | hdelivers := timerTurn_rx_cases hr s.busIn v
    · obtain hne | ⟨-, hhigh⟩ := hchanged
      · exact absurd hdata hne
      · exact absurd (hvalid.symm.trans hhigh) Bool.false_ne_true
    · exact hdelivers
  · obtain rfl : levelTurn s.k (s.pins.slave j) s.busIn v = w := by
      simpa [hv, hw] using (step_level_getElem? hs h).symm
    exact absurd ⟨levelTurn_rxData .., levelTurn_rxValid ..⟩ hkept

end Sys2Proof.Machine

/-! # Words, and the turns that fetch them

Each row of the three tables is the encoding of its instruction (`tsvRows_encoding`, `encoding_tsv_mem`, …).
That makes decode and encode agree (`decode_encodeWith`, `eq_encodeWith_of_decode`), and with each
instruction in one row, all rows that select a vector are one (`SelectRow.eq_of_decode`). The state that
`State.arrange` builds assembles the vector it is given, but for a bit that the selected row masks
(`msv_arrange`, `tsv_slaveFor`). -/

namespace Sys2Proof

/-! ## Rows of the tables and encodings of instructions -/

theorem SelectRow.selects_iff {n : Nat} (r : SelectRow n) (v : BitVec n) :
    r.selects v = true ↔ v &&& r.mask = r.pattern := beq_iff_eq

/-- A row selects its pattern with any bits where its mask has none. -/
theorem SelectRow.selects_fill {n : Nat} {r : SelectRow n} (h : r.pattern &&& r.mask = r.pattern)
    (free : BitVec n) : r.selects (r.pattern ||| (free &&& ~~~r.mask)) = true := by
  rw [SelectRow.selects_iff, BitVec.and_or_distrib_right, h, BitVec.and_assoc, BitVec.and_comm (~~~r.mask)]
  simp

/-- A vector that a row selects is its pattern with the vector's bits where its mask has none. -/
theorem SelectRow.eq_fill_of_selects {n : Nat} {r : SelectRow n} {v : BitVec n} (h : r.selects v = true) :
    v = r.pattern ||| (v &&& ~~~r.mask) := by
  rw [← (r.selects_iff v).mp h, ← BitVec.and_or_distrib_left]
  simp

theorem SelectRow.of_find? {n : Nat} {rows : List (SelectRow n)} {r : SelectRow n} {v : BitVec n}
    (h : rows.find? (fun q => q.selects v) = some r) : r ∈ rows ∧ r.selects v = true :=
  ⟨List.mem_of_find?_eq_some h, List.find?_some (p := fun q : SelectRow n => q.selects v) h⟩

theorem symbolRows_encoding : ∀ r ∈ symbolRows, encoding r.2.2 = .symbol r.1 r.2.1 := by decide

theorem msvRows_encoding : ∀ r ∈ msvRows, encoding r.instr = .msv r.pattern r.mask := by decide

theorem tsvRows_encoding : ∀ r ∈ tsvRows, encoding r.instr = .tsv r.pattern r.mask := by decide

theorem encoding_symbol_mem {i : Instr} {units : List Level} {sample : Option Nat}
    (h : encoding i = .symbol units sample) : (units, sample, i) ∈ symbolRows := by
  cases i <;> cases h <;> decide

theorem encoding_msv_mem {i : Instr} {p m : BitVec 8} (h : encoding i = .msv p m) :
    ⟨p, m, i⟩ ∈ msvRows := by
  cases i <;> cases h <;> decide

theorem encoding_tsv_mem {i : Instr} {p m : BitVec 10} (h : encoding i = .tsv p m) :
    ⟨p, m, i⟩ ∈ tsvRows := by
  cases i <;> cases h <;> decide

theorem msvRows_pattern_masked : ∀ r ∈ msvRows, r.pattern &&& r.mask = r.pattern := by decide

theorem tsvRows_pattern_masked : ∀ r ∈ tsvRows, r.pattern &&& r.mask = r.pattern := by decide

/-! ## What a word decodes to -/

theorem decode_symbol_of_mem : ∀ r ∈ symbolRows, decode (.symbol r.1 r.2.1) = .ok r.2.2 := by decide

theorem decode_symbol_iff {units : List Level} {sample : Option Nat} {i : Instr} :
    decode (.symbol units sample) = .ok i ↔ (units, sample, i) ∈ symbolRows := by
  refine ⟨fun h => ?_, decode_symbol_of_mem (units, sample, i)⟩
  simp only [decode] at h
  split at h
  · next r hr =>
    have hsel := List.find?_some hr
    simp only [Bool.and_eq_true, beq_iff_eq] at hsel
    obtain ⟨rfl, rfl⟩ := hsel
    cases h
    exact List.mem_of_find?_eq_some hr
  · cases h

theorem decode_msv_iff {v : BitVec 8} {i : Instr} :
    decode (.msv v) = .ok i ↔ ∃ r ∈ msvRows, r.selects v = true ∧ r.instr = i := by
  refine ⟨fun h => ?_, fun ⟨r, hr, hv, hi⟩ => hi ▸ decode_msv_of_selects hr hv⟩
  simp only [decode] at h
  split at h
  · next r hr =>
    cases h
    obtain ⟨hmem, hv⟩ := SelectRow.of_find? hr
    exact ⟨r, hmem, hv, rfl⟩
  · cases h

theorem decode_tsv_iff {v : BitVec 10} {i : Instr} :
    decode (.tsv v) = .ok i ↔ ∃ r ∈ tsvRows, r.selects v = true ∧ r.instr = i := by
  refine ⟨fun h => ?_, fun ⟨r, hr, hv, hi⟩ => hi ▸ decode_tsv_of_selects hr hv⟩
  simp only [decode] at h
  split at h
  · next r hr =>
    cases h
    obtain ⟨hmem, hv⟩ := SelectRow.of_find? hr
    exact ⟨r, hmem, hv, rfl⟩
  · cases h

/-- A word of an instruction decodes to it, whatever the bits that its mask leaves out. -/
theorem decode_encodeWith (i : Instr) (free : BitVec 10) : decode (encodeWith i free) = .ok i := by
  cases h : encoding i with
  | symbol units sample =>
    simp only [encodeWith, h]
    exact decode_symbol_iff.mpr (encoding_symbol_mem h)
  | msv p m =>
    simp only [encodeWith, h]
    have hr := encoding_msv_mem h
    exact decode_msv_of_selects hr (SelectRow.selects_fill (msvRows_pattern_masked _ hr) _)
  | tsv p m =>
    simp only [encodeWith, h]
    have hr := encoding_tsv_mem h
    exact decode_tsv_of_selects hr (SelectRow.selects_fill (tsvRows_pattern_masked _ hr) _)

/-- A word that decodes is the word of its instruction with the word's own bits where the mask has none. -/
theorem eq_encodeWith_of_decode {w : Word} {i : Instr} (h : decode w = .ok i) :
    ∃ free : BitVec 10, w = encodeWith i free := by
  cases w with
  | symbol units sample =>
    have henc : encoding i = .symbol units sample := symbolRows_encoding _ (decode_symbol_iff.mp h)
    exact ⟨0, by simp only [encodeWith, henc]⟩
  | msv v =>
    obtain ⟨r, hr, hv, rfl⟩ := decode_msv_iff.mp h
    refine ⟨v.setWidth 10, ?_⟩
    simp only [encodeWith, msvRows_encoding r hr, BitVec.setWidth_setWidth_of_le _ (by decide : 8 ≤ 10),
      BitVec.setWidth_eq]
    exact congrArg Word.msv (SelectRow.eq_fill_of_selects hv)
  | tsv v =>
    obtain ⟨r, hr, hv, rfl⟩ := decode_tsv_iff.mp h
    refine ⟨v, ?_⟩
    simp only [encodeWith, tsvRows_encoding r hr]
    exact congrArg Word.tsv (SelectRow.eq_fill_of_selects hv)

/-- Settles O1: each direction by the kind of the word, since the tables' rows are the encodings. -/
theorem decodeAgreesWithEncode : Obligations.DecodeAgreesWithEncode :=
  ⟨fun i free _ => decode_encodeWith i free, fun _ _ => eq_encodeWith_of_decode⟩

/-- Settles O4: each word is a word of its instruction, a vector with its own bits as those left out. -/
theorem writtenWordsDecode : Obligations.WrittenWordsDecode :=
  ⟨decode_encodeWith .start 0, decode_encodeWith .bit0 0, decode_encodeWith .ackq 0,
    decode_encodeWith .mAccept 0x64, decode_encodeWith .mHalFail 0xB0,
    decode_encodeWith .lvlIgnoreRise 0x126, decode_encodeWith .raAddrAck 0x05C,
    decode_encodeWith .idleStartShort 0x1C0, decode_encodeWith .tmrDataAckEnd 0x2B5⟩

/-! ## The one row that selects a vector -/

/-- A finite check over the 1024 values. -/
theorem tsvRows_complete : ∀ v : BitVec 10, ∃ r ∈ tsvRows, r.selects v = true := by decide +kernel

/-- A finite check over the 256 values. -/
theorem msvRows_complete : ∀ v : BitVec 8, ∃ r ∈ msvRows, r.selects v = true := by decide +kernel

theorem tsvRows_instr_nodup : (tsvRows.map (·.instr)).Nodup := by decide

theorem msvRows_instr_nodup : (msvRows.map (·.instr)).Nodup := by decide

/-- In a table without an instruction twice, what a word decodes to is at one row. -/
theorem SelectRow.eq_of_decode {n : Nat} {rows : List (SelectRow n)} (hrows : (rows.map (·.instr)).Nodup)
    {q r : SelectRow n} (hq : q ∈ rows) (hr : r ∈ rows) {w : Word} (hqw : decode w = .ok q.instr)
    (hrw : decode w = .ok r.instr) : q = r :=
  List.inj_on_of_nodup_map hrows hq hr (Except.ok.inj (hqw.symm.trans hrw))

/-- Settles O2: the table is complete, and all rows that select a TSV are the one it decodes to. -/
theorem everyTsvSelectsExactlyOneRow : Obligations.EveryTsvSelectsExactlyOneRow := by
  unfold Obligations.EveryTsvSelectsExactlyOneRow
  intro v
  obtain ⟨r, hr, hv⟩ := tsvRows_complete v
  have hdec := decode_tsv_of_selects hr hv
  exact ⟨r, hr, hv, hdec, fun q hq hqv =>
    SelectRow.eq_of_decode tsvRows_instr_nodup hq hr (decode_tsv_of_selects hq hqv) hdec⟩

/-- Settles O3: the table is complete, and all rows that select an MSV are the one it decodes to. -/
theorem everyMsvSelectsExactlyOneRow : Obligations.EveryMsvSelectsExactlyOneRow := by
  unfold Obligations.EveryMsvSelectsExactlyOneRow
  intro v
  obtain ⟨r, hr, hv⟩ := msvRows_complete v
  have hdec := decode_msv_of_selects hr hv
  exact ⟨r, hr, hv, hdec, fun q hq hqv =>
    SelectRow.eq_of_decode msvRows_instr_nodup hq hr (decode_msv_of_selects hq hqv) hdec⟩

/-! ## The units of a string -/

theorem unitString_length (l h : Nat) : (unitString l h).length = l + h := by simp [unitString]

/-- Inside a string its unit `n` is Low in the Low phase and High after it. -/
theorem unitString_getElem? {l h n : Nat} (hn : n < l + h) :
    (unitString l h)[n]? = some (if n < l then .low else .high) := by
  by_cases hl : n < l
  · rw [unitString, List.getElem?_append_left (by simpa using hl)]
    simp [hl]
  · rw [unitString, List.getElem?_append_right (by simpa using hl)]
    simp only [List.length_replicate, if_neg hl, List.getElem?_replicate, if_pos (by omega : n - l < h)]

end Sys2Proof

namespace Sys2Proof.Machine

/-! ## No step faults or is refused -/

/-- Settles O10, turn by turn: each turn makes of the state what `Reference` says of its unit. -/
theorem stepAlwaysAnswersNext : Obligations.StepAlwaysAnswersNext := by
  unfold Obligations.StepAlwaysAnswersNext
  intro s
  cases hs : s.slot with
  | ackDrive j => exact ⟨_, step_ackDrive hs⟩
  | symbolDrive =>
    obtain ⟨ack, h⟩ := step_symbolDrive hs
    exact ⟨_, h⟩
  | masterRow => exact ⟨_, step_masterRow hs⟩
  | timer j => exact ⟨_, step_timer hs⟩
  | level j => exact ⟨_, step_level hs⟩
  | clock => exact ⟨_, step_clock hs⟩

/-! ## The waveform of a symbol -/

/-- A symbol's string has the phases of the shape table (40_symbol_codec.md R111). -/
theorem encode_symbolInstr (x : Symbol) :
    ∃ sample, encode (symbolInstr x) = .symbol (unitString (lowLen x) (highLen x)) sample := by
  cases x <;> exact ⟨_, rfl⟩

/-- Settles O21: an offset is in the Low phase exactly when its unit is. -/
theorem waveformIsItsUnitString : Obligations.WaveformIsItsUnitString := by
  unfold Obligations.WaveformIsItsUnitString
  intro x k t hk ht
  obtain ⟨sample, henc⟩ := encode_symbolInstr x
  refine ⟨_, sample, henc, unitString_length _ _, ?_⟩
  have hunit : t / k < lowLen x + highLen x := (Nat.div_lt_iff_lt_mul hk).mpr ht
  have hlow : emitsLow k x t = decide (t / k < lowLen x) :=
    decide_eq_decide.mpr (Nat.div_lt_iff_lt_mul hk).symm
  simp only [unitString_getElem? hunit, hlow, decide_eq_true_iff]

/-! ## The bits of an MSV -/

theorem packMsv_getLsbD : ∀ busy start valid fault sp lvl eos last : Bool,
    let x := packMsv busy start valid fault sp lvl eos last
    x.getLsbD 7 = busy ∧ x.getLsbD 6 = start ∧ x.getLsbD 5 = valid ∧ x.getLsbD 4 = fault ∧
      x.getLsbD 3 = sp ∧ x.getLsbD 2 = lvl ∧ x.getLsbD 1 = eos ∧ x.getLsbD 0 = last := by
  decide +kernel

/-- A finite check over the 256 values. -/
theorem packMsv_getLsbD_self : ∀ x : BitVec 8,
    packMsv (x.getLsbD 7) (x.getLsbD 6) (x.getLsbD 5) (x.getLsbD 4) (x.getLsbD 3) (x.getLsbD 2)
      (x.getLsbD 1) (x.getLsbD 0) = x := by
  decide +kernel

theorem requestValid_eq (p : Pins) :
    requestValid p = decide (p.mAddr.toNat < 2 ^ 5 ∧ p.mData.toNat < 2 ^ 1) :=
  Bool.eq_iff_iff.mpr ((requestValid_iff p).trans decide_eq_true_iff.symm)

theorem samplePoint_eq (k : Nat) (m : Master) :
    samplePoint k m = decide ((m.idx = 6 ∨ m.idx = 8) ∧ m.t = 5 * k) :=
  Bool.eq_iff_iff.mpr ((samplePoint_iff_idx k m).trans decide_eq_true_iff.symm)

theorem levelBit_eq (l : Level) : levelBit l = decide (l = .high) :=
  Bool.eq_iff_iff.mpr ((levelBit_iff l).trans decide_eq_true_iff.symm)

theorem endOfSymbol_eq (k : Nat) (m : Master) :
    endOfSymbol k m = decide (m.t = totLen (symbolAt m) * k - 1) :=
  Bool.eq_iff_iff.mpr ((endOfSymbol_iff k m).trans decide_eq_true_iff.symm)

theorem lastSymbol_eq (m : Master) : lastSymbol m = decide (m.idx = 8) :=
  Bool.eq_iff_iff.mpr ((lastSymbol_iff_idx m).trans decide_eq_true_iff.symm)

/-- ACKQ is sampled at `5K`, and `10K - 1` is its last cycle. -/
theorem endOfSymbol_of_samplePoint {k : Nat} (hk : 0 < k) {m : Master} (hsp : samplePoint k m = true) :
    endOfSymbol k m = false := by
  obtain ⟨hidx, ht⟩ := (samplePoint_iff_idx k m).mp hsp
  have hlen : totLen (symbolAt m) = 10 := by
    obtain h | h := hidx <;> simp [totLen_symbolAt, h]
  rw [endOfSymbol_eq, hlen, ht]
  exact decide_eq_false (by omega)

/-- Settles O7: the unique row is O3's, and the bits are those that `packMsv` puts in their places. -/
theorem msvBitsComeFromTheState : Obligations.MsvBitsComeFromTheState := by
  unfold Obligations.MsvBitsComeFromTheState
  refine ⟨everyMsvSelectsExactlyOneRow, fun s => ?_⟩
  obtain ⟨hbusy, hstart, hvalid, hfault, hsp, hlvl, heos, hlast⟩ :=
    packMsv_getLsbD s.master.busy s.pins.mStart (requestValid s.pins) s.pins.mDrvFault
      (samplePoint s.k s.master) (levelBit s.busIn) (endOfSymbol s.k s.master) (lastSymbol s.master)
  have hfetch (hs : s.slot = .masterRow) (hr : s.pins.mRst = false) : s.fetch = some (.msv s.msv) := by
    simp [State.fetch, hs, hr]
  refine ⟨hfetch, hbusy, hstart, hvalid.trans (requestValid_eq _), hfault,
    hsp.trans (samplePoint_eq ..), hlvl.trans (levelBit_eq _), heos.trans (endOfSymbol_eq ..),
    hlast.trans (lastSymbol_eq _), fun ⟨hsp', heos'⟩ => ?_⟩
  have hend := endOfSymbol_of_samplePoint s.k_pos (hsp.symm.trans hsp')
  exact Bool.false_ne_true (hend.symm.trans (heos.symm.trans heos'))

/-! ## The state built for an MSV -/

theorem levelBit_bitLevel (b : Bool) : levelBit (bitLevel b) = b := by cases b <;> rfl

theorem requestValid_portsFor (x : BitVec 8) (p : Pins) : requestValid (portsFor x p) = x.getLsbD 5 := by
  cases h : x.getLsbD 5 <;> simp only [requestValid, portsFor, h] <;> rfl

theorem masterFor_idx (k : Nat) (x : BitVec 8) (m : Master) :
    (masterFor k x m).idx = if x.getLsbD 0 then 8 else if x.getLsbD 3 then 6 else 0 := rfl

theorem masterFor_t (k : Nat) (x : BitVec 8) (m : Master) :
    (masterFor k x m).t = if x.getLsbD 3 then 5 * k
      else if x.getLsbD 1 then (if x.getLsbD 0 then 10 else 20) * k - 1 else 0 := by
  unfold masterFor
  cases x.getLsbD 0 <;> rfl

theorem totLen_symbolAt_masterFor (k : Nat) (x : BitVec 8) (m : Master) :
    totLen (symbolAt (masterFor k x m)) = if x.getLsbD 0 || x.getLsbD 3 then 10 else 20 := by
  have hidx := masterFor_idx k x m
  rw [totLen_symbolAt] <;> rw [hidx] <;> cases x.getLsbD 0 <;> cases x.getLsbD 3 <;> simp

theorem lastSymbol_masterFor (k : Nat) (x : BitVec 8) (m : Master) :
    lastSymbol (masterFor k x m) = x.getLsbD 0 := by
  rw [lastSymbol_eq, masterFor_idx]
  cases x.getLsbD 0 <;> cases x.getLsbD 3 <;> rfl

theorem samplePoint_masterFor {k : Nat} (hk : 0 < k) (x : BitVec 8) (m : Master) :
    samplePoint k (masterFor k x m) = x.getLsbD 3 := by
  rw [samplePoint_eq, masterFor_idx, masterFor_t]
  cases x.getLsbD 3 with
  | true => cases x.getLsbD 0 <;> simp
  | false =>
    cases x.getLsbD 0 with
    | true => cases x.getLsbD 1 <;> simp <;> omega
    | false => simp

/-- `sp` and `eos` together are taken as `sp`. -/
theorem endOfSymbol_masterFor {k : Nat} (hk : 0 < k) (x : BitVec 8) (m : Master) :
    endOfSymbol k (masterFor k x m) = (x.getLsbD 1 && !x.getLsbD 3) := by
  cases h3 : x.getLsbD 3 with
  | true =>
    rw [endOfSymbol_of_samplePoint hk ((samplePoint_masterFor hk x m).trans h3)]
    simp
  | false =>
    rw [endOfSymbol_eq, masterFor_t, totLen_symbolAt_masterFor, h3]
    cases x.getLsbD 1 <;> cases x.getLsbD 0 <;> simp <;> omega

/-- At a sample point no row reads `eos` (30_encoding.md R91). -/
theorem masterInstrOfBits_eos_masked (busy start valid fault sp lvl eos last : Bool) :
    masterInstrOfBits busy start valid fault sp lvl (eos && !sp) last =
      masterInstrOfBits busy start valid fault sp lvl eos last := by
  cases sp <;> simp [masterInstrOfBits]

theorem fetch_arrange_msv (s : State) (x : BitVec 8) :
    (s.arrange (.msv x)).fetch = some (.msv (s.arrange (.msv x)).msv) := rfl

/-- The master assembles the vector it is built for, but for `eos` at a sample point. -/
theorem msv_arrange (s : State) (x : BitVec 8) :
    (s.arrange (.msv x)).msv = packMsv (x.getLsbD 7) (x.getLsbD 6) (x.getLsbD 5) (x.getLsbD 4)
      (x.getLsbD 3) (x.getLsbD 2) (x.getLsbD 1 && !x.getLsbD 3) (x.getLsbD 0) := by
  have h : (s.arrange (.msv x)).msv =
      packMsv (x.getLsbD 7) (x.getLsbD 6) (requestValid (portsFor x s.pins)) (x.getLsbD 4)
        (samplePoint s.k (masterFor s.k x s.master)) (levelBit (bitLevel (x.getLsbD 2)))
        (endOfSymbol s.k (masterFor s.k x s.master)) (lastSymbol (masterFor s.k x s.master)) := rfl
  rw [h, requestValid_portsFor, samplePoint_masterFor s.k_pos, levelBit_bitLevel,
    endOfSymbol_masterFor s.k_pos, lastSymbol_masterFor]

theorem decode_msv_arrange (s : State) (x : BitVec 8) :
    decode (.msv (s.arrange (.msv x)).msv) = decode (.msv x) := by
  conv_rhs => rw [← packMsv_getLsbD_self x]
  rw [msv_arrange, decode_packMsv, decode_packMsv, masterInstrOfBits_eos_masked]

/-! ## The state built for a TSV -/

theorem withSlave_head? (l : List Slave) : ∃ v, (withSlave l)[0]? = some v := by
  cases l <;> exact ⟨_, rfl⟩

/-- An operation on the first slave of at least one. -/
theorem withSlave_modify_head? {l : List Slave} {v : Slave} (h : (withSlave l)[0]? = some v)
    (f : Slave → Slave) : ((withSlave l).modify 0 f)[0]? = some (f v) := by
  rw [List.getElem?_modify, h]; rfl

theorem Pins.firstSlaveRuns_rst (p : Pins) : (p.firstSlaveRuns.slave 0).rst = false := by
  unfold Pins.firstSlaveRuns Pins.slave
  cases p.slaves <;> rfl

theorem phaseBits_bitsPhase (hi lo : Bool) :
    phaseBits (bitsPhase hi lo) = BitVec.ofBool hi ++ BitVec.ofBool lo := by
  cases hi <;> cases lo <;> rfl

/-- The field of a slave in a receiving phase is complete as the vector asks; in Idle and Done it is not. -/
theorem fieldComplete_slaveFor (x : BitVec 10) (v : Slave) :
    fieldComplete (slaveFor x v) = (x.getLsbD 3 && (x.getLsbD 5 != x.getLsbD 4)) := by
  simp only [fieldComplete, slaveFor]
  cases x.getLsbD 5 <;> cases x.getLsbD 4 <;> cases x.getLsbD 3 <;> rfl

theorem addressMatch_slaveFor (x : BitVec 10) (v : Slave) :
    addressMatch (slaveFor x v) = x.getLsbD 2 := by
  simp only [addressMatch, slaveFor]
  cases x.getLsbD 2 with
  | true => simp
  | false =>
    generalize v.ownAddress = a
    revert a; decide

/-- A TSV with `fc` as a slave of its phase gives it: 0 in Idle and Done (42_slave_receiver.md R163). -/
def maskFieldComplete (x : BitVec 10) : BitVec 10 :=
  if x.getLsbD 5 = x.getLsbD 4 then x &&& ~~~0x008#10 else x

/-- A vector from its bits, with `fc` masked in Idle and Done: a finite check over the 1024 values. -/
theorem maskFieldComplete_eq_bits : ∀ x : BitVec 10,
    BitVec.ofBool (x.getLsbD 9) ++ BitVec.ofBool (x.getLsbD 8) ++ BitVec.ofBool (x.getLsbD 7)
      ++ BitVec.ofBool (x.getLsbD 6) ++ (BitVec.ofBool (x.getLsbD 5) ++ BitVec.ofBool (x.getLsbD 4))
      ++ BitVec.ofBool (x.getLsbD 3 && (x.getLsbD 5 != x.getLsbD 4)) ++ BitVec.ofBool (x.getLsbD 2)
      ++ BitVec.ofBool (x.getLsbD 1) ++ BitVec.ofBool (x.getLsbD 0) = maskFieldComplete x := by
  decide +kernel

/-- A row whose mask has `fc` asks for a receiving phase (30_encoding.md R90). -/
theorem tsvRows_fieldComplete_masked : ∀ r ∈ tsvRows, ~~~0x008#10 &&& r.mask = r.mask ∨
    (r.mask.getLsbD 5 = true ∧ r.mask.getLsbD 4 = true ∧ r.pattern.getLsbD 5 ≠ r.pattern.getLsbD 4) := by
  decide

theorem selects_maskFieldComplete {r : SelectRow 10} (hr : r ∈ tsvRows) {x : BitVec 10}
    (h : r.selects x = true) : r.selects (maskFieldComplete x) = true := by
  unfold maskFieldComplete
  split
  · next hphase =>
    have hsel := (r.selects_iff x).mp h
    obtain hmask | ⟨h5, h4, hne⟩ := tsvRows_fieldComplete_masked r hr
    · rw [SelectRow.selects_iff, BitVec.and_assoc, hmask, hsel]
    · rw [← hsel, BitVec.getLsbD_and, BitVec.getLsbD_and, h5, h4, Bool.and_true, Bool.and_true] at hne
      exact absurd hphase hne
  · exact h

/-- What a TSV decodes to does not depend on `fc` in Idle and Done. -/
theorem decode_tsv_maskFieldComplete {x : BitVec 10} {i : Instr} (h : decode (.tsv x) = .ok i) :
    decode (.tsv (maskFieldComplete x)) = .ok i := by
  obtain ⟨r, hr, hv, hi⟩ := decode_tsv_iff.mp h
  exact decode_tsv_iff.mpr ⟨r, hr, selects_maskFieldComplete hr hv, hi⟩

/-- The slave assembles the vector it is built for, but for `fc` in Idle and Done. -/
theorem tsv_slaveFor (x : BitVec 10) (v : Slave) :
    tsv (x.getLsbD 9) (bitLevel (x.getLsbD 8)) (slaveFor x v) = maskFieldComplete x := by
  have h : tsv (x.getLsbD 9) (bitLevel (x.getLsbD 8)) (slaveFor x v) =
      BitVec.ofBool (x.getLsbD 9) ++ BitVec.ofBool (levelBit (bitLevel (x.getLsbD 8)))
        ++ BitVec.ofBool (x.getLsbD 7) ++ BitVec.ofBool (levelBit (bitLevel (x.getLsbD 6)))
        ++ phaseBits (bitsPhase (x.getLsbD 5) (x.getLsbD 4))
        ++ BitVec.ofBool (fieldComplete (slaveFor x v)) ++ BitVec.ofBool (addressMatch (slaveFor x v))
        ++ BitVec.ofBool (x.getLsbD 1) ++ BitVec.ofBool (x.getLsbD 0) := rfl
  rw [h, levelBit_bitLevel, levelBit_bitLevel, phaseBits_bitsPhase, fieldComplete_slaveFor,
    addressMatch_slaveFor, maskFieldComplete_eq_bits]

theorem fetch_timer {s : State} {j : Nat} {v : Slave} (hs : s.slot = .timer j)
    (hv : s.slaves[j]? = some v) (hr : (s.pins.slave j).rst = false) (ht : v.tmr = 1) :
    s.fetch = some (.tsv (tsv true s.busIn v)) := by
  simp only [State.fetch, hs, hv, State.unitPins_of_slot (.inl hs), hr, ht, and_self, if_true]

theorem fetch_level {s : State} {j : Nat} {v : Slave} (hs : s.slot = .level j)
    (hv : s.slaves[j]? = some v) (hr : (s.pins.slave j).rst = false) (hl : s.busIn ≠ v.linePrev) :
    s.fetch = some (.tsv (tsv false s.busIn v)) := by
  simp only [State.fetch, hs, hv, State.unitPins_of_slot (.inr hs), hr, hl, ne_eq, not_false_eq_true,
    and_self, if_true]

theorem otherLevel_ne (l : Level) : l ≠ otherLevel l := by cases l <;> decide

/-- The countdown is at 1 for an expiry, and the level before was the other one for an edge. -/
theorem fetch_arrange_tsv (s : State) (x : BitVec 10) :
    (s.arrange (.tsv x)).fetch = some (.tsv (maskFieldComplete x)) := by
  obtain ⟨v, hv⟩ := withSlave_head? s.slaves
  have hslave : (s.arrange (.tsv x)).slaves[0]? = some (slaveFor x v) := withSlave_modify_head? hv _
  have hrst : ((s.arrange (.tsv x)).pins.slave 0).rst = false := s.pins.firstSlaveRuns_rst
  have hline : (s.arrange (.tsv x)).busIn = bitLevel (x.getLsbD 8) := rfl
  rw [← tsv_slaveFor x v, ← hline]
  cases h9 : x.getLsbD 9 with
  | true =>
    have hslot : (s.arrange (.tsv x)).slot = .timer 0 := by simp only [State.arrange, h9, if_true]
    have htmr : (slaveFor x v).tmr = 1 := by simp only [slaveFor, h9, if_true]
    exact fetch_timer hslot hslave hrst htmr
  | false =>
    have hslot : (s.arrange (.tsv x)).slot = .level 0 := by
      simp only [State.arrange, h9, Bool.false_eq_true, if_false]
    have hprev : (slaveFor x v).linePrev = otherLevel (bitLevel (x.getLsbD 8)) := by
      simp only [slaveFor, h9, Bool.false_eq_true, if_false]
    exact fetch_level hslot hslave hrst (hline ▸ hprev ▸ otherLevel_ne _)

/-! ## The state built for a symbol -/

theorem fetch_symbolDrive {s : State} (hs : s.slot = .symbolDrive) (hb : s.master.busy = true) :
    s.fetch = some (encode (symbolInstr (symbolAt s.master))) := by
  simp only [State.fetch, hs, hb, if_true]

/-- The instructions of the symbol table are ACKR and the four symbols that a master emits. -/
theorem ackr_or_symbolInstr_of_mem {r : List Level × Option Nat × Instr} (h : r ∈ symbolRows) :
    r.2.2 = .ackr ∨ ∃ x, r.2.2 = symbolInstr x := by
  simp only [symbolRows, List.mem_cons, List.not_mem_nil, or_false] at h
  obtain rfl | rfl | rfl | rfl | rfl := h
  · exact .inr ⟨.start, rfl⟩
  · exact .inr ⟨.bit1, rfl⟩
  · exact .inr ⟨.bit0, rfl⟩
  · exact .inr ⟨.ackq, rfl⟩
  · exact .inl rfl

/-- The master is busy with the symbol that the word stands for. -/
theorem arrange_symbol {units : List Level} {sample : Option Nat} {x : Symbol} (s : State)
    (h : decode (.symbol units sample) = .ok (symbolInstr x)) :
    let t := s.arrange (.symbol units sample)
    t.slot = .symbolDrive ∧ t.master.busy = true ∧ symbolAt t.master = x := by
  simp only [State.arrange, h]
  cases x with
  | start => exact ⟨rfl, rfl, rfl⟩
  | bit1 => exact ⟨rfl, rfl, by simp [symbolInstr, symbolAt, masterAtSymbol, bitSym]⟩
  | bit0 => exact ⟨rfl, rfl, by simp [symbolInstr, symbolAt, masterAtSymbol, bitSym]⟩
  | ackq => exact ⟨rfl, rfl, rfl⟩

theorem fetch_arrange_ackr {units : List Level} {sample : Option Nat} (s : State)
    (h : decode (.symbol units sample) = .ok .ackr) :
    (s.arrange (.symbol units sample)).fetch = some (encode .ackr) := by
  obtain ⟨v, hv⟩ := withSlave_head? s.slaves
  simp [State.arrange, State.fetch, h, withSlave_modify_head? hv, Slave.driveLow]

/-! ## The word that is brought about -/

/-- Whatever word decodes, the turn that is built for it fetches a word of the same instruction. -/
theorem fetch_arrange {w : Word} {i : Instr} (s : State) (h : decode w = .ok i) :
    ∃ word, (s.arrange w).fetch = some word ∧ decode word = .ok i := by
  cases w with
  | symbol units sample =>
    obtain rfl | ⟨x, rfl⟩ := ackr_or_symbolInstr_of_mem (decode_symbol_iff.mp h)
    · exact ⟨_, fetch_arrange_ackr s h, rfl⟩
    · obtain ⟨hslot, hbusy, hsym⟩ := arrange_symbol s h
      exact ⟨_, fetch_symbolDrive hslot hbusy, hsym ▸ decode_symbolInstr _⟩
  | msv x => exact ⟨_, fetch_arrange_msv s x, (decode_msv_arrange s x).trans h⟩
  | tsv x => exact ⟨_, fetch_arrange_tsv s x, decode_tsv_maskFieldComplete h⟩

theorem tableWord_of_decodeTableWord {nbits w : Nat} {i : Instr} (h : decodeTableWord nbits w = some i) :
    ∃ word, tableWord nbits w = some word ∧ decode word = .ok i := by
  unfold decodeTableWord at h
  split at h
  · cases h
  · next word hword =>
    split at h
    · next hdec => cases h; exact ⟨word, hword, hdec⟩
    · cases h

/-- Settles O5: a word of the table that decodes is brought about as any other word. -/
theorem tableWordIsFetchedNext : Obligations.TableWordIsFetchedNext := by
  unfold Obligations.TableWordIsFetchedNext
  intro s nbits w i h
  obtain ⟨word, hword, hdec⟩ := tableWord_of_decodeTableWord h
  simp only [State.withFetchWord, hword]
  exact fetch_arrange s hdec

end Sys2Proof.Machine

/-! # The symbols, and how a slave times a Low of the line

A cycle with idle ports is a turn of the countdown and then, where the line changes, the row of the edge
(`Reference.slaveCycle_of_no_edge`, `Reference.slaveCycle_of_edge`). On a line that stays as it is, a slave
only counts down until its countdown expires (`Reference.listen_of_no_expiry`, `Reference.listen_expiry`). So
a rise finds the slave as its falling edge left it, with the countdown still running, expired in the cycle of
the rise, or expired before it (`Reference.rise_early`, `Reference.rise_at_expiry`, `Reference.rise_late`):
the three clauses of R118's and of R119's table. -/

namespace Sys2Proof.Machine

/-! ## The symbols (40_symbol_codec.md R111 to R116) -/

/-- Settles O17: the shape functions give the table, and each symbol but START has 10 units by its case. -/
theorem symbolShapes : Obligations.SymbolShapes := by
  unfold Obligations.SymbolShapes
  refine ⟨rfl, fun _ => rfl, fun x hx => ?_⟩
  cases x with
  | start => exact absurd rfl hx
  | bit1 => decide
  | bit0 => decide
  | ackq => decide

theorem emitsLow_iff (k : Nat) (x : Symbol) (t : Nat) : emitsLow k x t = true ↔ t < lowLen x * k :=
  decide_eq_true_iff

/-- A symbol's cycle drives the line by its shape (41_master_transmitter.md R130), and does nothing else. -/
theorem State.emit_eq (x : Symbol) (s : State) :
    s.emit x = { s with wire := if s.master.t < lowLen x * s.k then .low else s.wire } := by
  simp only [State.emit, State.pull, emitsLow_iff]

/-- Settles O18: each of the three is the drive of its symbol. -/
theorem symbolsDriveTheirLowPhase : Obligations.SymbolsDriveTheirLowPhase := by
  unfold Obligations.SymbolsDriveTheirLowPhase
  exact fun s => ⟨congrArg _ (s.emit_eq .start), congrArg _ (s.emit_eq .bit1),
    congrArg _ (s.emit_eq .bit0)⟩

/-- The emitter of ACKQ has released the line when it samples it. -/
theorem State.busIn_emit_ackq {s : State} (ht : s.master.t = 5 * s.k) : (s.emit .ackq).busIn = s.busIn := by
  have hk := s.k_pos
  have hw : (s.emit .ackq).wire = s.wire := by
    rw [State.emit_eq]
    exact if_neg (by simp only [lowLen]; omega)
  simp only [State.busIn, State.emit_pins, hw]

/-- Settles O19: the line that ACKQ samples is the one that it found. -/
theorem ackQueryDrivesAndSamples : Obligations.AckQueryDrivesAndSamples := by
  unfold Obligations.AckQueryDrivesAndSamples
  intro s
  have hack : (s.emit .ackq).sampleAck.ackWire =
      if s.master.t = 5 * s.k then some (decide (s.busIn = .low)) else none := by
    rw [State.sampleAck_ackWire]
    refine ite_congr rfl (fun ht => ?_) fun _ => rfl
    rw [State.busIn_emit_ackq ht, beq_eq_decide]
  calc exec .ackq s
      = .next { s.emit .ackq with ackWire := (s.emit .ackq).sampleAck.ackWire } := rfl
    _ = _ := by rw [hack, State.emit_eq]; rfl

/-- Settles O20: ACKR pulls the line, and the drive turn pulls it by `acking`. -/
theorem ackResponseDrivesWhileAcking : Obligations.AckResponseDrivesWhileAcking := by
  unfold Obligations.AckResponseDrivesWhileAcking
  refine ⟨fun _ => rfl, fun s j v hs hv => ?_⟩
  rw [step_ackDrive hs, hv, ← hs]
  rfl

/-! ## A slave's cycle with idle ports -/

theorem timerTurn_of_tmr_ne_one {v : Slave} (h : v.tmr ≠ 1) (line : Level) :
    timerTurn .idle line v = tick v := by
  simp [timerTurn, SlavePins.idle, h]

theorem timerTurn_of_tmr_eq_one {v : Slave} (h : v.tmr = 1) (line : Level) :
    timerTurn .idle line v = Reference.timerExpiry false line (tick v) := by
  simp [timerTurn, SlavePins.idle, h]

theorem Reference.slaveCycle_of_no_edge (k : Nat) {v : Slave} {line : Level} (h : v.linePrev = line) :
    Reference.slaveCycle k .idle line v = timerTurn .idle line v := by
  have hprev : (timerTurn .idle line v).linePrev = line :=
    (timerTurn_linePrev Bool.false_ne_true line v).trans h
  rw [← levelTurn_timerTurn, levelTurn, if_neg fun hc => hc.2 hprev.symm]
  exact congrArg (fun l => { timerTurn .idle line v with linePrev := l }) hprev.symm

theorem Reference.slaveCycle_of_edge (k : Nat) {v : Slave} {line : Level} (h : v.linePrev ≠ line) :
    Reference.slaveCycle k .idle line v =
      Reference.levelEvent k false line { timerTurn .idle line v with linePrev := line } := by
  have hprev : (timerTurn .idle line v).linePrev = v.linePrev :=
    timerTurn_linePrev Bool.false_ne_true line v
  rw [← levelTurn_timerTurn, levelTurn, if_pos ⟨rfl, hprev.symm ▸ h.symm⟩]
  rfl

/-! ## Listening to a line that stays as it is -/

theorem Reference.listen_append (k : Nat) (l₁ l₂ : List Level) (v : Slave) :
    Reference.listen k (l₁ ++ l₂) v = Reference.listen k l₂ (Reference.listen k l₁ v) :=
  List.foldl_append

theorem Reference.listen_replicate_succ (k n : Nat) (line : Level) (v : Slave) :
    Reference.listen k (List.replicate (n + 1) line) v =
      Reference.slaveCycle k .idle line (Reference.listen k (List.replicate n line) v) := by
  rw [List.replicate_succ', Reference.listen_append]
  rfl

/-- As long as no countdown expires, cycles without an edge change the countdown and the pulses only
(42_slave_receiver.md R160, R161). -/
theorem Reference.listen_of_no_expiry (k : Nat) {n : Nat} {line : Level} {v : Slave}
    (hl : v.linePrev = line) (hn : v.tmr = 0 ∨ n < v.tmr) :
    Reference.listen k (List.replicate n line) v =
      { v with
        tmr := v.tmr - n
        rxValid := if n = 0 then v.rxValid else false
        halFail := if n = 0 then v.halFail else false } := by
  induction n with
  | zero => rfl
  | succ n ih =>
    rw [Reference.listen_replicate_succ, ih (by omega), Reference.slaveCycle_of_no_edge k (by exact hl),
      timerTurn_of_tmr_ne_one (by dsimp only; omega)]
    simp [tick, Nat.sub_sub]

/-- The slave with the count `t` and the line of the cycle, its pulses over. -/
def Slave.inCycle (t : Nat) (line : Level) (v : Slave) : Slave :=
  { v with tmr := t, linePrev := line, rxValid := false, halFail := false }

section

variable (t : Nat) (l : Level) (v : Slave)

@[simp] theorem Slave.inCycle_phase : (v.inCycle t l).phase = v.phase := rfl
@[simp] theorem Slave.inCycle_addressAccum : (v.inCycle t l).addressAccum = v.addressAccum := rfl
@[simp] theorem Slave.inCycle_dataAccum : (v.inCycle t l).dataAccum = v.dataAccum := rfl
@[simp] theorem Slave.inCycle_currentBit : (v.inCycle t l).currentBit = v.currentBit := rfl
@[simp] theorem Slave.inCycle_awaitingTimer : (v.inCycle t l).awaitingTimer = v.awaitingTimer := rfl
@[simp] theorem Slave.inCycle_tmr : (v.inCycle t l).tmr = t := rfl

end

/-- The last cycle of a countdown without an edge runs the rules of the expiry (42_slave_receiver.md R161). -/
theorem Reference.listen_expiry (k : Nat) {n : Nat} {line : Level} {v : Slave} (hl : v.linePrev = line)
    (hn : n + 1 = v.tmr) :
    Reference.listen k (List.replicate (n + 1) line) v =
      Reference.timerExpiry false line (v.inCycle 0 line) := by
  have hone : v.tmr - n = 1 := by omega
  rw [Reference.listen_replicate_succ, Reference.listen_of_no_expiry k hl (.inr (by omega)), hone,
    Reference.slaveCycle_of_no_edge k (by exact hl), timerTurn_of_tmr_eq_one rfl]
  subst hl
  rfl

/-! ## A Low of the line -/

/-- The slave is in no phase in which an expiry does more than sample the line and release a drive: no frame
is to be delivered (42_slave_receiver.md R185) and no address is being acknowledged (R184). -/
def Slave.ExpiryOnlyReleases (v : Slave) : Prop :=
  v.phase ≠ .done ∧ (v.phase = .receivingData → v.acking = false)

theorem Slave.ExpiryOnlyReleases.timerExpiry {v : Slave} (h : v.ExpiryOnlyReleases) (line : Level) :
    Reference.timerExpiry false line v = release (Machine.timerExpiry line v) := by
  obtain ⟨hdone, hdata⟩ := h
  cases hp : v.phase with
  | idle => simp [Reference.timerExpiry, release, hp]
  | receivingAddress => simp [Reference.timerExpiry, release, hp]
  | receivingData => simp [Reference.timerExpiry, release, Machine.timerExpiry, hp, hdata hp]
  | done => exact absurd hp hdone

/-- The slave as the row of a falling edge finds it when no countdown is awaited: a stale countdown that
expires in this cycle leaves its sample (42_slave_receiver.md R164, R182). -/
def Slave.atFall (v : Slave) : Slave :=
  { v.inCycle (v.tmr - 1) .low with
    lastSampled := if v.tmr = 1 then .low else v.lastSampled
    acking := if v.tmr = 1 then false else v.acking }

/-- A falling edge at a slave that awaits no countdown. -/
theorem Reference.slaveCycle_fall (k : Nat) {v : Slave} (h : v.ExpiryOnlyReleases)
    (hw : v.awaitingTimer = false) (hl : v.linePrev = .high) :
    Reference.slaveCycle k .idle .low v = Reference.levelEvent k false .low v.atFall := by
  rw [Reference.slaveCycle_of_edge k (by simp [hl])]
  by_cases ht : v.tmr = 1
  · have htick : (tick v).ExpiryOnlyReleases := h
    rw [timerTurn_of_tmr_eq_one ht, htick.timerExpiry]
    simp [Slave.atFall, Slave.inCycle, tick, release, ht, hw]
  · rw [timerTurn_of_tmr_ne_one ht]
    simp [Slave.atFall, Slave.inCycle, tick, ht]

/-- The slave that a falling edge leaves waiting for `d` units. -/
def Slave.waiting (k d : Nat) (v : Slave) : Slave := arm k d (levelEvent v.atFall)

section

variable (k d : Nat) (v : Slave)

@[simp] theorem Slave.waiting_phase : (v.waiting k d).phase = v.phase := rfl
@[simp] theorem Slave.waiting_addressAccum : (v.waiting k d).addressAccum = v.addressAccum := rfl
@[simp] theorem Slave.waiting_dataAccum : (v.waiting k d).dataAccum = v.dataAccum := rfl
@[simp] theorem Slave.waiting_currentBit : (v.waiting k d).currentBit = v.currentBit := rfl
@[simp] theorem Slave.waiting_acking : (v.waiting k d).acking = v.atFall.acking := rfl
@[simp] theorem Slave.waiting_awaitingTimer : (v.waiting k d).awaitingTimer = true := rfl

end

/-- The slave as the row of a rise finds it after an expiry that sampled `sample`. -/
def Slave.atRise (sample : Level) (v : Slave) : Slave :=
  release (timerExpiry sample (v.inCycle 0 .high))

section

variable (l : Level) (v : Slave)

@[simp] theorem Slave.atRise_phase : (v.atRise l).phase = v.phase := rfl
@[simp] theorem Slave.atRise_addressAccum : (v.atRise l).addressAccum = v.addressAccum := rfl
@[simp] theorem Slave.atRise_dataAccum : (v.atRise l).dataAccum = v.dataAccum := rfl
@[simp] theorem Slave.atRise_currentBit : (v.atRise l).currentBit = v.currentBit := rfl
@[simp] theorem Slave.atRise_awaitingTimer : (v.atRise l).awaitingTimer = false := rfl
@[simp] theorem Slave.atRise_lastSampled : (v.atRise l).lastSampled = l := rfl

end

section

variable (k : Nat) {n : Nat} {v : Slave}

/-- A Low of `n + 1` cycles and a rise, from the slave after the falling edge. -/
theorem Reference.listen_pulse :
    Reference.listen k (List.replicate (n + 1) .low ++ [.high]) v =
      Reference.listen k (List.replicate n .low ++ [.high]) (Reference.slaveCycle k .idle .low v) := rfl

theorem Reference.listen_then_rise :
    Reference.listen k (List.replicate n .low ++ [.high]) v =
      Reference.slaveCycle k .idle .high (Reference.listen k (List.replicate n .low) v) :=
  Reference.listen_append ..

/-- A rise before the countdown expires finds it running. -/
theorem Reference.rise_early (hl : v.linePrev = .low) (hn : n + 1 < v.tmr) :
    Reference.listen k (List.replicate n .low ++ [.high]) v =
      Reference.levelEvent k false .high (v.inCycle (v.tmr - (n + 1)) .high) := by
  rw [Reference.listen_then_rise, Reference.listen_of_no_expiry k hl (.inr (by omega)),
    Reference.slaveCycle_of_edge k (by simp [hl]), timerTurn_of_tmr_ne_one (by dsimp only; omega)]
  rfl

/-- A rise in the cycle in which the countdown expires: the expiry comes first and samples the line High
(42_slave_receiver.md R160, R182). -/
theorem Reference.rise_at_expiry (hq : v.ExpiryOnlyReleases) (hl : v.linePrev = .low)
    (hn : n + 1 = v.tmr) :
    Reference.listen k (List.replicate n .low ++ [.high]) v =
      Reference.levelEvent k false .high (v.atRise .high) := by
  have hone : v.tmr - n = 1 := by omega
  rw [Reference.listen_then_rise, Reference.listen_of_no_expiry k hl (.inr (by omega)), hone,
    Reference.slaveCycle_of_edge k (by simp [hl]), timerTurn_of_tmr_eq_one rfl,
    Slave.ExpiryOnlyReleases.timerExpiry (by exact hq)]
  rfl

/-- A rise after the countdown has expired finds the line's sample Low. -/
theorem Reference.rise_late (hq : v.ExpiryOnlyReleases) (hl : v.linePrev = .low) (ht : 0 < v.tmr)
    (hn : v.tmr ≤ n) :
    Reference.listen k (List.replicate n .low ++ [.high]) v =
      Reference.levelEvent k false .high (v.atRise .low) := by
  have hsplit : List.replicate n Level.low =
      List.replicate (v.tmr - 1 + 1) .low ++ List.replicate (n - v.tmr) .low := by
    rw [List.replicate_append_replicate]
    congr 1
    omega
  have hexp : (v.inCycle 0 .low).ExpiryOnlyReleases := hq
  have hrest := Reference.listen_of_no_expiry k (n := n - v.tmr) (line := .low)
    (v := release (Machine.timerExpiry .low (v.inCycle 0 .low))) rfl (.inl rfl)
  rw [Reference.listen_then_rise, hsplit, Reference.listen_append,
    Reference.listen_expiry k hl (by omega), hexp.timerExpiry, hrest,
    Reference.slaveCycle_of_edge k (by simp [Slave.inCycle]),
    timerTurn_of_tmr_ne_one (by simp [Slave.inCycle])]
  simp [Slave.atRise, tick, Slave.inCycle, release]

end

/-! ## How a receiving slave decodes a Low (40_symbol_codec.md R118) -/

/-- The slave receives a field, and the field has room for a bit. -/
def Slave.HasRoom (v : Slave) : Prop :=
  (v.phase = .receivingAddress ∧ v.currentBit.toNat < 5) ∨
    (v.phase = .receivingData ∧ v.currentBit.toNat < 1)

theorem Slave.HasRoom.of_eq {v w : Slave} (h : v.HasRoom) (hp : w.phase = v.phase)
    (hc : w.currentBit = v.currentBit) : w.HasRoom := by
  rwa [Slave.HasRoom, hp, hc]

theorem Slave.HasRoom.inCycle {v : Slave} (h : v.HasRoom) (t : Nat) (l : Level) : (v.inCycle t l).HasRoom :=
  h.of_eq rfl rfl

theorem Slave.HasRoom.atRise {v : Slave} (h : v.HasRoom) (l : Level) : (v.atRise l).HasRoom :=
  h.of_eq rfl rfl

theorem Slave.HasRoom.cases {v : Slave} (h : v.HasRoom) :
    (v.phase = .receivingAddress ∧ v.currentBit ≠ 5#3) ∨
      (v.phase = .receivingData ∧ v.currentBit ≠ 1#3) :=
  h.imp (fun ⟨hp, hc⟩ => ⟨hp, fun h5 => by simp [h5] at hc⟩)
    fun ⟨hp, hc⟩ => ⟨hp, fun h1 => by simp [h1] at hc⟩

theorem Slave.HasRoom.expiryOnlyReleases {v : Slave} (h : v.HasRoom) (ha : v.acking = false) :
    v.ExpiryOnlyReleases := by
  refine ⟨fun hd => ?_, fun _ => ha⟩
  obtain ⟨hp, -⟩ | ⟨hp, -⟩ := h <;> exact nomatch hp.symm.trans hd

section

variable {v : Slave} (h : v.HasRoom) (k : Nat) (drvFault : Bool)
include h

/-- RX_BIT_ARM (42_slave_receiver.md R172) -/
theorem Slave.HasRoom.levelEvent_fall (hw : v.awaitingTimer = false) :
    Reference.levelEvent k drvFault .low v = arm k tCheckpoint (levelEvent v) := by
  obtain ⟨hp, hc⟩ | ⟨hp, hc⟩ := h.cases <;> simp [Reference.levelEvent, hp, hw, hc]

/-- RX_BIT_ZERO (42_slave_receiver.md R180) -/
theorem Slave.HasRoom.levelEvent_rise_waiting (hi : v.ignoreRise = false) (hw : v.awaitingTimer = true) :
    Reference.levelEvent k drvFault .high v = countBit (levelEvent v) := by
  obtain ⟨hp, hc⟩ | ⟨hp, hc⟩ := h.cases <;> simp [Reference.levelEvent, hi, hp, hw, hc]

/-- RX_BIT_ONE_BAD (42_slave_receiver.md R179) -/
theorem Slave.HasRoom.levelEvent_rise_sampledHigh (hi : v.ignoreRise = false)
    (hw : v.awaitingTimer = false) (hs : v.lastSampled = .high) :
    Reference.levelEvent k drvFault .high v = resetToIdle .v7 (levelEvent v) := by
  obtain ⟨hp, hc⟩ | ⟨hp, hc⟩ := h.cases <;> simp [Reference.levelEvent, hi, hp, hw, hc, hs]

/-- RX_BIT_ONE (42_slave_receiver.md R178) -/
theorem Slave.HasRoom.levelEvent_rise_sampledLow (hi : v.ignoreRise = false)
    (hw : v.awaitingTimer = false) (hs : v.lastSampled = .low) :
    Reference.levelEvent k drvFault .high v = countBit (setReceivedBit (levelEvent v)) := by
  obtain ⟨hp, hc⟩ | ⟨hp, hc⟩ := h.cases <;>
    simp [Reference.levelEvent, setReceivedBit, hi, hp, hw, hc, hs]

end

theorem setReceivedBit_of_receivingAddress {v : Slave} (hp : v.phase = .receivingAddress)
    (hc : v.currentBit.toNat < 5) :
    setReceivedBit v = { v with addressAccum := v.addressAccum ||| (1#5 <<< v.currentBit.toNat) } := by
  simp [setReceivedBit, setAddressBit, Config.addressN, hp, hc]

theorem setReceivedBit_of_receivingData {v : Slave} (hp : v.phase = .receivingData)
    (hc : v.currentBit.toNat < 1) : setReceivedBit v = { v with dataAccum := 1 } := by
  have hzero : v.currentBit = 0 := by
    apply BitVec.eq_of_toNat_eq
    simpa using hc
  simp only [setReceivedBit, hp, hzero, setDataBit_zero]

/-- The bit at `current_bit` of the field's accumulator is set, and all else is kept
(42_slave_receiver.md R178). -/
theorem Slave.HasRoom.setReceivedBit_frame {v : Slave} (h : v.HasRoom) :
    let w := setReceivedBit v
    w.phase = v.phase ∧ w.currentBit = v.currentBit ∧ w.awaitingTimer = v.awaitingTimer ∧
      w.lastSampled = v.lastSampled ∧
      (v.phase = .receivingAddress → w.dataAccum = v.dataAccum ∧
        w.addressAccum = v.addressAccum ||| (1#5 <<< v.currentBit.toNat)) ∧
      (v.phase = .receivingData → w.dataAccum = 1 ∧ w.addressAccum = v.addressAccum) := by
  obtain ⟨hp, hc⟩ | ⟨hp, hc⟩ := h
  · rw [setReceivedBit_of_receivingAddress hp hc]
    exact ⟨rfl, rfl, rfl, rfl, fun _ => ⟨rfl, rfl⟩, fun hd => nomatch hp.symm.trans hd⟩
  · rw [setReceivedBit_of_receivingData hp hc]
    exact ⟨rfl, rfl, rfl, rfl, fun ha => (nomatch hp.symm.trans ha), fun _ => ⟨rfl, rfl⟩⟩

/-- Settles O53: the falling edge arms `5K`, and the rise finds the countdown running, expired in its cycle
with the line High, or expired before with the line Low. -/
theorem bitThresholds : Obligations.BitThresholds := by
  unfold Obligations.BitThresholds
  intro k L v hk hL hroom hw ha hl
  obtain ⟨n, rfl⟩ : ∃ n, L = n + 1 := ⟨L - 1, by omega⟩
  have hv : v.HasRoom := hroom
  have hfall : v.atFall.HasRoom := hv.of_eq rfl rfl
  rw [Reference.listen_pulse, Reference.slaveCycle_fall k (hv.expiryOnlyReleases ha) hw hl,
    hfall.levelEvent_fall k false hw, ← Slave.waiting]
  have htmr : (v.waiting k tCheckpoint).tmr = 5 * k := rfl
  have hu : (v.waiting k tCheckpoint).HasRoom := hv.of_eq rfl rfl
  have hq : (v.waiting k tCheckpoint).ExpiryOnlyReleases :=
    hu.expiryOnlyReleases (by simp [Slave.atFall, ha])
  refine ⟨fun hlt => ?_, fun heq => ?_, fun hgt => ?_⟩
  · rw [Reference.rise_early k rfl (by omega), (hu.inCycle _ _).levelEvent_rise_waiting k false rfl rfl]
    simp
  · rw [Reference.rise_at_expiry k hq rfl (by omega),
      (hu.atRise _).levelEvent_rise_sampledHigh k false rfl rfl rfl]
    simp
  · rw [Reference.rise_late k hq rfl (by omega) (by omega),
      (hu.atRise _).levelEvent_rise_sampledLow k false rfl rfl rfl]
    have hbit := Slave.HasRoom.setReceivedBit_frame
      (v := levelEvent ((v.waiting k tCheckpoint).atRise .low)) (hu.of_eq rfl rfl)
    simpa using hbit

/-! ## How an Idle slave decodes a Low (40_symbol_codec.md R119) -/

section

variable {v : Slave} (hp : v.phase = .idle) (k : Nat) (drvFault : Bool)
include hp

theorem Slave.expiryOnlyReleases_of_idle : v.ExpiryOnlyReleases := by
  simp [Slave.ExpiryOnlyReleases, hp]

/-- IDLE_START_ARM (42_slave_receiver.md R167) -/
theorem Reference.levelEvent_fall_idle (hw : v.awaitingTimer = false) :
    Reference.levelEvent k drvFault .low v = arm k tStartDet (Machine.levelEvent v) := by
  simp [Reference.levelEvent, hp, hw]

/-- IDLE_START_SHORT (42_slave_receiver.md R171) -/
theorem Reference.levelEvent_rise_idle_waiting (hi : v.ignoreRise = false) (hw : v.awaitingTimer = true) :
    Reference.levelEvent k drvFault .high v = resetToIdle .v3 (Machine.levelEvent v) := by
  simp [Reference.levelEvent, hi, hp, hw]

/-- IDLE_START_MALFORMED (42_slave_receiver.md R170) -/
theorem Reference.levelEvent_rise_idle_sampledHigh (hi : v.ignoreRise = false)
    (hw : v.awaitingTimer = false) (hs : v.lastSampled = .high) :
    Reference.levelEvent k drvFault .high v = resetToIdle .v2 (Machine.levelEvent v) := by
  simp [Reference.levelEvent, hi, hp, hw, hs]

/-- IDLE_START_OK (42_slave_receiver.md R169) -/
theorem Reference.levelEvent_rise_idle_sampledLow (hi : v.ignoreRise = false)
    (hw : v.awaitingTimer = false) (hs : v.lastSampled = .low) :
    Reference.levelEvent k drvFault .high v =
      { Machine.levelEvent v with phase := .receivingAddress, currentBit := 0 } := by
  simp [Reference.levelEvent, hi, hp, hw, hs]

end

/-- Settles O54: as O53, with the `15K` that the falling edge arms in Idle. -/
theorem startThresholds : Obligations.StartThresholds := by
  unfold Obligations.StartThresholds
  intro k L v hk hL hp hw hl
  obtain ⟨n, rfl⟩ : ∃ n, L = n + 1 := ⟨L - 1, by omega⟩
  have hfall : v.atFall.phase = .idle := hp
  rw [Reference.listen_pulse, Reference.slaveCycle_fall k (Slave.expiryOnlyReleases_of_idle hp) hw hl,
    Reference.levelEvent_fall_idle hfall k false hw, ← Slave.waiting]
  have htmr : (v.waiting k tStartDet).tmr = 15 * k := rfl
  have hu : (v.waiting k tStartDet).phase = .idle := hp
  have hq : (v.waiting k tStartDet).ExpiryOnlyReleases := Slave.expiryOnlyReleases_of_idle hu
  refine ⟨fun hlt => ?_, fun heq => ?_, fun hgt => ?_⟩
  · rw [Reference.rise_early k rfl (by omega),
      Reference.levelEvent_rise_idle_waiting ((Slave.inCycle_phase ..).trans hu) k false rfl rfl]
    simp [htmr]
  · rw [Reference.rise_at_expiry k hq rfl (by omega),
      Reference.levelEvent_rise_idle_sampledHigh ((Slave.atRise_phase ..).trans hu) k false rfl rfl rfl]
    simp
  · rw [Reference.rise_late k hq rfl (by omega) (by omega),
      Reference.levelEvent_rise_idle_sampledLow ((Slave.atRise_phase ..).trans hu) k false rfl rfl rfl]
    simp

/-! ## How long an address is acknowledged (40_symbol_codec.md R116) -/

/-- The slave that the falling edge of an address query leaves acknowledging. -/
def Slave.acknowledging (k : Nat) (v : Slave) : Slave :=
  { v.waiting k tAckHold with acking := true, currentBit := 0, phase := .receivingData }

/-- RA_ADDR_ACK (42_slave_receiver.md R174) -/
theorem Reference.slaveCycle_addressQuery (k : Nat) {v : Slave} (hp : v.phase = .receivingAddress)
    (hw : v.awaitingTimer = false) (hc : v.currentBit = 5) (hm : v.addressAccum = v.ownAddress)
    (hl : v.linePrev = .high) :
    Reference.slaveCycle k .idle .low v = v.acknowledging k := by
  have hq : v.ExpiryOnlyReleases := by simp [Slave.ExpiryOnlyReleases, hp]
  rw [Reference.slaveCycle_fall k hq hw hl]
  simp [Reference.levelEvent, Slave.acknowledging, Slave.waiting, Slave.atFall, Slave.inCycle, hp, hw, hc, hm]

/-- TMR_ADDR_ACK_END (42_slave_receiver.md R184) -/
theorem Reference.timerExpiry_addressAck {v : Slave} (hp : v.phase = .receivingData)
    (ha : v.acking = true) (line : Level) :
    Reference.timerExpiry false line v =
      { release (Machine.timerExpiry line v) with ignoreRise := true } := by
  simp [Reference.timerExpiry, release, hp, ha]

/-- Settles O55: the falling edge arms `8K` and drives the line; the drive lasts as long as the countdown
runs, and its expiry ends it. -/
theorem ackHoldLastsEightUnits : Obligations.AckHoldLastsEightUnits := by
  unfold Obligations.AckHoldLastsEightUnits
  intro k n v hk hp hw hc hm hl
  have htmr : (v.acknowledging k).tmr = 8 * k := rfl
  have hlow : (v.acknowledging k).linePrev = .low := rfl
  have hquery (i : Nat) : Reference.listen k (List.replicate (i + 1) .low) v =
      Reference.listen k (List.replicate i .low) (v.acknowledging k) :=
    congrArg (Reference.listen k (List.replicate i .low))
      (Reference.slaveCycle_addressQuery k hp hw hc hm hl)
  refine ⟨fun hpos hle => ?_, fun hend => ?_⟩
  · obtain ⟨i, rfl⟩ : ∃ i, n = i + 1 := ⟨n - 1, by omega⟩
    rw [hquery, Reference.listen_of_no_expiry k hlow (.inr (by omega))]
    exact ⟨rfl, rfl⟩
  · obtain ⟨i, hi⟩ : ∃ i, 8 * k = i + 1 := ⟨8 * k - 1, by omega⟩
    rw [hend, hquery, hi, Reference.listen_expiry k hlow (by omega), Reference.timerExpiry_addressAck rfl rfl]
    exact ⟨rfl, rfl, rfl⟩

end Sys2Proof.Machine

/-! # The master's rows, and the timeline of a frame

The rules of the master's cycle, an equation for each row of a busy master
(`Reference.masterCycle_halFail` to `Reference.masterCycle_endOfSymbol`), say where a frame ends and that in
every other cycle it goes on by one (`Master.AtCycle.masterCycle`). R143's timeline is an induction over the
cycles with this, and R144's bound follows from the cycles that a frame has left. -/

namespace Sys2Proof.Machine

/-! ## The master's rows -/

/-- Settles O15: the master's turn is a cycle of the master, by the row that its MSV selects. -/
theorem masterTurnFollowsTheStepRows : Obligations.MasterTurnFollowsTheStepRows := by
  unfold Obligations.MasterTurnFollowsTheStepRows
  intro s hs
  rw [step_masterRow hs, ← hs]
  rfl

/-- The symbol of an address bit (41_master_transmitter.md R130). -/
theorem symbolAt_address {m : Master} {i : Nat} (h1 : 1 ≤ i) (h5 : i ≤ 5) (h : m.idx.toNat = i) :
    symbolAt m = bitSym (m.a.getLsbD (i - 1)) := by
  have hne : ¬ i = 0 := by omega
  simp only [symbolAt, h, if_neg hne, Config.addressN, if_pos h5]

/-- The symbol of an Ack query. -/
theorem symbolAt_query {m : Master} (h : m.idx = 6 ∨ m.idx = 8) : symbolAt m = .ackq := by
  obtain h | h := h <;> simp [symbolAt, h, idxQa, idxQd, Config.addressN, Config.dataN]

/-- The symbol of the data bit. -/
theorem symbolAt_data {m : Master} (h : m.idx = 7) : symbolAt m = bitSym (m.d.getLsbD 0) := by
  simp [symbolAt, h, idxQa, Config.addressN, Config.dataN]

theorem symbolAt_start {m : Master} (h : m.idx = 0) : symbolAt m = .start := by
  simp [symbolAt, h]

/-- Settles O22: the symbols index by index, and the master's drive of the line. -/
theorem masterDrivesByItsSymbol : Obligations.MasterDrivesByItsSymbol := by
  unfold Obligations.MasterDrivesByItsSymbol
  refine ⟨fun m => ⟨symbolAt_start, fun i => symbolAt_address, fun h => symbolAt_query (.inl h),
    symbolAt_data, fun h => symbolAt_query (.inr h)⟩, fun s hs => ?_⟩
  obtain ⟨ack, hstep⟩ := step_symbolDrive hs
  refine ⟨ack, ?_⟩
  have hdrive : s.master.driveLow s.k = true ↔
      s.master.busy = true ∧ s.master.t < lowLen (symbolAt s.master) * s.k := by
    rw [Master.driveLow, Bool.and_eq_true, emitsLow_iff]
  simp only [hstep, State.pull, hdrive, State.advance, hs, Slot.next]

/-- Settles O23: the row is the default of R131 alone. -/
theorem idleWaitOnlyClearsDone : Obligations.IdleWaitOnlyClearsDone := by
  unfold Obligations.IdleWaitOnlyClearsDone
  exact fun _ => rfl

/-- Settles O24: the latches take the low bits of the ports. -/
theorem acceptLatchesTheRequest : Obligations.AcceptLatchesTheRequest := by
  unfold Obligations.AcceptLatchesTheRequest
  intro s
  rw [← BitVec.setWidth_eq_extractLsb' (by decide), ← BitVec.setWidth_eq_extractLsb' (by decide)]
  rfl

/-- Settles O25: the row's two writes are the record's two fields. -/
theorem rejectReportsUsageError : Obligations.RejectReportsUsageError := by
  unfold Obligations.RejectReportsUsageError
  exact fun _ => rfl

/-- Settles O26: each row is a finish, and the code of a missing ack is that of the queried field. -/
theorem framesEndWithTheirCode : Obligations.FramesEndWithTheirCode := by
  unfold Obligations.FramesEndWithTheirCode
  refine fun s => ⟨rfl, ?_, rfl⟩
  rw [← nackCode_eq]
  rfl

/-- Settles O27: both rows count in the `MT_W` bits, which hold every count below `20K`. -/
theorem symbolsAreCountedThrough : Obligations.SymbolsAreCountedThrough := by
  unfold Obligations.SymbolsAreCountedThrough
  exact fun s => ⟨⟨(countCycle s.k s.master).t, rfl, rfl,
    fun ht => congrArg Master.t (countCycle_of_lt ht)⟩, rfl⟩

/-! ## A cycle of the master, row by row -/

theorem Reference.masterCycle_reset {p : Pins} (hr : p.mRst = true) (k : Nat) (line : Level) (m : Master) :
    Reference.masterCycle k p line m = Master.atReset :=
  if_pos hr

section

variable {k : Nat} {p : Pins} {line : Level} {m : Master}

/-- M_ACCEPT (41_master_transmitter.md R134) -/
theorem Reference.masterCycle_accept (hr : ¬ p.mRst = true) (hb : ¬ m.busy = true) (hs : p.mStart = true)
    (hvalid : p.mAddr.toNat < 32 ∧ p.mData.toNat < 2) :
    Reference.masterCycle k p line m =
      { m with
        busy := true, idx := 0, t := 0, a := p.mAddr.setWidth 5, d := p.mData.setWidth 1, done := false } := by
  simp only [Reference.masterCycle, if_neg hr, if_neg hb, if_pos hs, if_pos hvalid]

/-- M_HAL_FAIL (41_master_transmitter.md R136) -/
theorem Reference.masterCycle_halFail (hr : ¬ p.mRst = true) (hb : m.busy = true)
    (hf : p.mDrvFault = true) :
    Reference.masterCycle k p line m = { m with busy := false, result := 3, done := true } := by
  simp only [Reference.masterCycle, if_neg hr, if_pos hb, if_pos hf]

variable (hr : ¬ p.mRst = true) (hf : ¬ p.mDrvFault = true) (hb : m.busy = true)
include hr hf hb

/-- M_ACK_NACK (41_master_transmitter.md R137) -/
theorem Reference.masterCycle_missedAck (hs : samplePoint k m = true) (hl : line = .high) :
    Reference.masterCycle k p line m =
      { m with busy := false, result := if m.idx = 6 then 1 else 2, done := true } := by
  rw [samplePoint_iff_idx] at hs
  simp only [Reference.masterCycle, if_neg hr, if_pos hb, if_neg hf, if_pos hs, hl]

/-- M_ACK_SEEN and M_HOLD (41_master_transmitter.md R138, R139): before the last cycle of a symbol, without
a missing ack, the cycle is counted. -/
theorem Reference.masterCycle_hold (hs : samplePoint k m = true → line = .low) (hi : m.idx.toNat ≤ 8)
    (ht : m.t + 1 < totLen (symbolAt m) * k) :
    Reference.masterCycle k p line m = { m with t := m.t + 1, done := false } := by
  have hlen : totLen (symbolAt m) * k ≤ 20 * k := Nat.mul_le_mul_right k <| by
    rw [totLen_symbolAt hi]; split_ifs <;> decide
  have hcount : countCycle k { m with done := false } = { m with t := m.t + 1, done := false } :=
    countCycle_of_lt (m := { m with done := false }) (ht.trans_le hlen)
  have hend : ¬ m.t = totLen (symbolAt m) * k - 1 := by omega
  rw [samplePoint_iff_idx] at hs
  by_cases hsample : (m.idx = 6 ∨ m.idx = 8) ∧ m.t = 5 * k
  · simp only [Reference.masterCycle, if_neg hr, if_pos hb, if_neg hf, if_pos hsample, hs hsample, hcount]
  · simp only [Reference.masterCycle, if_neg hr, if_pos hb, if_neg hf, if_neg hsample, if_neg hend, hcount]

/-- The last cycle of a symbol is no sample point, since ACKQ is sampled at `5K` of its `10K` cycles. -/
theorem Reference.masterCycle_endOfSymbol (ht : m.t + 1 = totLen (symbolAt m) * k) :
    Reference.masterCycle k p line m =
      if m.idx = 8 then { m with busy := false, result := 0, done := true }
      else { m with idx := m.idx + 1, t := 0, done := false } := by
  have hsample : ¬ ((m.idx = 6 ∨ m.idx = 8) ∧ m.t = 5 * k) := fun ⟨hidx, hat⟩ => by
    rw [symbolAt_query hidx, hat] at ht
    change 5 * k + 1 = 10 * k at ht
    omega
  have hend : m.t = totLen (symbolAt m) * k - 1 := by omega
  simp only [Reference.masterCycle, if_neg hr, if_pos hb, if_neg hf, if_neg hsample, if_pos hend]

end

/-! ## The cycles of a frame (41_master_transmitter.md R143) -/

/-- The master is in cycle `n` of a frame that sends `a` and `d`, counted from the frame's first cycle. -/
structure Master.AtCycle (k : Nat) (a : BitVec 5) (d : BitVec 1) (n : Nat) (m : Master) : Prop where
  busy : m.busy = true
  idx_bound : m.idx.toNat ≤ 8
  t_bound : m.t < if m.idx = 0 then 20 * k else 10 * k
  elapsed_eq : m.elapsed k = n
  addr_eq : m.a = a
  data_eq : m.d = d

/-- START takes the cycles before `20K`, and the symbol of index `i` those from `10K (i + 1)` on. -/
theorem Master.elapsed_eq_start (k : Nat) (m : Master) :
    m.elapsed k = (if m.idx = 0 then 0 else 10 * k * (m.idx.toNat + 1)) + m.t := by
  unfold Master.elapsed
  split_ifs with h0
  · exact (Nat.zero_add _).symm
  · obtain ⟨i, hi⟩ : ∃ i, m.idx.toNat = i + 1 :=
      Nat.exists_eq_succ_of_ne_zero fun hc => h0 (BitVec.eq_of_toNat_eq hc)
    rw [hi, Nat.add_sub_cancel]
    ring

section

variable {k n : Nat} {a : BitVec 5} {d : BitVec 1} {m : Master} (h : m.AtCycle k a d n)
include h

/-- The count is within the current symbol. -/
theorem Master.AtCycle.t_lt : m.t < totLen (symbolAt m) * k := by
  rw [totLen_symbolAt h.idx_bound, ite_mul]
  exact h.t_bound

/-- A frame has `100K` cycles. -/
theorem Master.AtCycle.lt : n < 100 * k := by
  have hlen := h.t_bound
  have hidx : 10 * k * (m.idx.toNat + 1) ≤ 10 * k * 9 :=
    Nat.mul_le_mul_left _ (Nat.succ_le_succ h.idx_bound)
  rw [← h.elapsed_eq, Master.elapsed_eq_start]
  split_ifs at hlen ⊢ <;> omega

/-- After START the cycle of a frame gives the control point. -/
theorem Master.AtCycle.position_iff {c : BitVec 4} {t : Nat} (hc : 1 ≤ c.toNat) (ht : t < 10 * k) :
    m.idx = c ∧ m.t = t ↔ n = 10 * k * (c.toNat + 1) + t := by
  have hn := h.elapsed_eq
  have hbound := h.t_bound
  rw [Master.elapsed_eq_start] at hn
  constructor
  · rintro ⟨rfl, rfl⟩
    rw [← hn, if_neg fun h0 => by simp [h0] at hc]
  · intro he
    split_ifs at hn hbound
    · have : 10 * k * 2 ≤ 10 * k * (c.toNat + 1) := Nat.mul_le_mul_left _ (by omega)
      omega
    · have hpos : 0 < 10 * k := Nat.zero_lt_of_lt ht
      obtain ⟨hi, ht'⟩ := (Nat.div_mod_unique hpos).mpr ⟨(Nat.add_comm ..).trans hn, hbound⟩
      obtain ⟨hc', ht''⟩ := (Nat.div_mod_unique hpos).mpr ⟨(Nat.add_comm ..).trans he.symm, ht⟩
      exact ⟨BitVec.eq_of_toNat_eq (Nat.succ_inj.mp (hi.symm.trans hc')), ht'.symm.trans ht''⟩

variable (hk : 0 < k)
include hk

theorem Master.AtCycle.addressSample_iff : m.idx = 6 ∧ m.t = 5 * k ↔ n = 75 * k := by
  rw [h.position_iff (by decide) (by omega)]
  change n = 10 * k * (6 + 1) + 5 * k ↔ _
  omega

theorem Master.AtCycle.dataSample_iff : m.idx = 8 ∧ m.t = 5 * k ↔ n = 95 * k := by
  rw [h.position_iff (by decide) (by omega)]
  change n = 10 * k * (8 + 1) + 5 * k ↔ _
  omega

theorem Master.AtCycle.lastCycle_iff : m.idx = 8 ∧ m.t = 10 * k - 1 ↔ n + 1 = 100 * k := by
  rw [h.position_iff (by decide) (by omega)]
  change n = 10 * k * (8 + 1) + (10 * k - 1) ↔ _
  omega

theorem Master.AtCycle.sample_iff : samplePoint k m = true ↔ n = 75 * k ∨ n = 95 * k := by
  rw [samplePoint_iff_idx, or_and_right, h.addressSample_iff hk, h.dataSample_iff hk]

omit hk in
/-- A cycle counted within a symbol. -/
theorem Master.AtCycle.hold (ht : m.t + 1 < totLen (symbolAt m) * k) :
    { m with t := m.t + 1, done := false }.AtCycle k a d (n + 1) where
  busy := h.busy
  idx_bound := h.idx_bound
  t_bound := by
    rw [totLen_symbolAt h.idx_bound, ite_mul] at ht
    exact ht
  elapsed_eq := by
    rw [← h.elapsed_eq, Master.elapsed_eq_start, Master.elapsed_eq_start]
    rfl
  addr_eq := h.addr_eq
  data_eq := h.data_eq

/-- The first cycle of the next symbol. -/
theorem Master.AtCycle.nextSymbol (ht : m.t + 1 = totLen (symbolAt m) * k) (hlast : m.idx ≠ 8) :
    { m with idx := m.idx + 1, t := 0, done := false }.AtCycle k a d (n + 1) := by
  have hidx := h.idx_bound
  have helapsed := h.elapsed_eq
  have hnext : (m.idx + 1).toNat = m.idx.toNat + 1 := by bv_omega
  have hbound : (m.idx + 1).toNat ≤ 8 := by bv_omega
  have hne : m.idx + 1 ≠ 0 := fun h0 => by
    rw [h0] at hnext
    exact absurd hnext (Nat.succ_ne_zero _).symm
  rw [totLen_symbolAt hidx, ite_mul] at ht
  rw [Master.elapsed_eq_start] at helapsed
  have hstart : 10 * k * (m.idx.toNat + 1 + 1) + 0 = n + 1 := by
    split_ifs at helapsed ht with h0
    · simp [h0]
      omega
    · rw [Nat.mul_succ]
      omega
  refine ⟨h.busy, hbound, ?_, ?_, h.addr_eq, h.data_eq⟩
  · rw [if_neg hne]
    exact Nat.mul_pos (by decide) hk
  · rw [Master.elapsed_eq_start, if_neg hne, hnext]
    exact hstart

variable {p : Pins} {line : Level} (hr : ¬ p.mRst = true) (hf : ¬ p.mDrvFault = true)
include hr hf

/-- A frame without a missing ack goes on. -/
theorem Master.AtCycle.masterCycle (hs : n = 75 * k ∨ n = 95 * k → line = .low) (hn : n + 1 ≠ 100 * k) :
    (Reference.masterCycle k p line m).AtCycle k a d (n + 1) := by
  obtain hlt | heq := Nat.lt_or_eq_of_le h.t_lt
  · rw [Reference.masterCycle_hold hr hf h.busy (fun hsample => hs ((h.sample_iff hk).mp hsample))
      h.idx_bound hlt]
    exact h.hold hlt
  · have hlast : m.idx ≠ 8 := fun h8 => hn <| (h.lastCycle_iff hk).mp ⟨h8, by
      rw [symbolAt_query (.inr h8)] at heq
      exact Nat.eq_sub_of_add_eq heq⟩
    rw [Reference.masterCycle_endOfSymbol hr hf h.busy heq, if_neg hlast]
    exact h.nextSymbol hk heq hlast

/-- A frame whose address is not acknowledged. -/
theorem Master.AtCycle.masterCycle_addressNack (hn : n = 75 * k) (hl : line = .high) :
    Reference.masterCycle k p line m = { m with busy := false, result := 1, done := true } := by
  obtain ⟨hidx, ht⟩ := (h.addressSample_iff hk).mpr hn
  rw [Reference.masterCycle_missedAck hr hf h.busy ((samplePoint_iff_idx k m).mpr ⟨.inl hidx, ht⟩) hl,
    if_pos hidx]

/-- A frame whose data is not acknowledged. -/
theorem Master.AtCycle.masterCycle_dataNack (hn : n = 95 * k) (hl : line = .high) :
    Reference.masterCycle k p line m = { m with busy := false, result := 2, done := true } := by
  obtain ⟨hidx, ht⟩ := (h.dataSample_iff hk).mpr hn
  rw [Reference.masterCycle_missedAck hr hf h.busy ((samplePoint_iff_idx k m).mpr ⟨.inr hidx, ht⟩) hl,
    if_neg (by simp [hidx])]

/-- The last cycle of a frame. -/
theorem Master.AtCycle.masterCycle_ok (hn : n + 1 = 100 * k) :
    Reference.masterCycle k p line m = { m with busy := false, result := 0, done := true } := by
  obtain ⟨hidx, ht⟩ := (h.lastCycle_iff hk).mpr hn
  have hend : m.t + 1 = totLen (symbolAt m) * k := by
    rw [symbolAt_query (.inr hidx), ht]
    change _ = 10 * k
    omega
  rw [Reference.masterCycle_endOfSymbol hr hf h.busy hend, if_pos hidx]

end

/-- The first cycle of a frame. -/
theorem Master.atCycle_zero {k : Nat} (hk : 0 < k) {m : Master} (hb : m.busy = true) (hi : m.idx = 0)
    (ht : m.t = 0) : m.AtCycle k m.a m.d 0 where
  busy := hb
  idx_bound := by simp [hi]
  t_bound := by simp [hi, ht, hk]
  elapsed_eq := by simp [Master.elapsed, hi, ht]
  addr_eq := rfl
  data_eq := rfl

/-- Up to cycle `n` of a frame without a fault, whose queries before `n` are sampled Low, the control point is
where the cycle says. -/
theorem Reference.transmit_atCycle {k : Nat} (hk : 0 < k) {ports : Nat → Pins} {levels : Nat → Level}
    {m : Master} (hb : m.busy = true) (hi : m.idx = 0) (ht : m.t = 0)
    (hports : ∀ n, (ports n).mRst = false ∧ (ports n).mDrvFault = false) {n : Nat} (hn : n < 100 * k)
    (hack : ∀ j < n, j = 75 * k ∨ j = 95 * k → levels j = .low) :
    (Reference.transmit k ports levels m n).AtCycle k m.a m.d n := by
  induction n with
  | zero => exact Master.atCycle_zero hk hb hi ht
  | succ n ih =>
    obtain ⟨hr, hf⟩ := hports n
    exact (ih (by omega) fun j hj => hack j (by omega)).masterCycle hk (by simp [hr]) (by simp [hf])
      (hack n (by omega)) (by omega)

/-- Settles O57: the frame goes on until the first missing ack, or until its last cycle. -/
theorem frameTimeline : Obligations.FrameTimeline := by
  unfold Obligations.FrameTimeline
  intro k ports levels m hk hb hi ht hports at_ stop
  have hr (n : Nat) : ¬ (ports n).mRst = true := by simp [hports]
  have hf (n : Nat) : ¬ (ports n).mDrvFault = true := by simp [hports]
  have hlast : stop < 100 * k := by
    simp only [stop]
    split_ifs <;> omega
  have hack (n : Nat) (hn : n < stop) : n = 75 * k ∨ n = 95 * k → levels n = .low := by
    intro hs
    cases hl : levels n with
    | low => rfl
    | high =>
      obtain rfl | rfl := hs
      · simp [stop, hl] at hn
      · simp only [stop, hl, if_true] at hn
        split_ifs at hn <;> omega
  have hat (n : Nat) (hn : n ≤ stop) : (at_ n).AtCycle k m.a m.d n :=
    Reference.transmit_atCycle hk hb hi ht hports (by omega) fun j hj => hack j (by omega)
  refine ⟨fun n hn => ?_, ?_⟩
  · obtain ⟨hbusy, hidx, hbound, helapsed, ha, hd⟩ := hat n hn
    exact ⟨hbusy, helapsed, hidx, hbound, ha, hd⟩
  · have hend := hat stop le_rfl
    have hnext : at_ (stop + 1) =
        Reference.masterCycle k (ports stop) (levels stop) (at_ stop) := rfl
    by_cases h75 : levels (75 * k) = .high
    · have hs : stop = 75 * k := if_pos h75
      rw [hnext, hend.masterCycle_addressNack hk (hr _) (hf _) hs (hs ▸ h75), if_pos h75]
      exact ⟨rfl, rfl, rfl⟩
    by_cases h95 : levels (95 * k) = .high
    · have hs : stop = 95 * k := (if_neg h75).trans (if_pos h95)
      rw [hnext, hend.masterCycle_dataNack hk (hr _) (hf _) hs (hs ▸ h95), if_neg h75, if_pos h95]
      exact ⟨rfl, rfl, rfl⟩
    · have hs : stop = 100 * k - 1 := (if_neg h75).trans (if_neg h95)
      rw [hnext, hend.masterCycle_ok hk (hr _) (hf _) (by omega), if_neg h75, if_neg h95]
      exact ⟨rfl, rfl, rfl⟩

/-- A master that is still busy after a cycle of a frame is in the frame's next cycle, whatever its
inputs. -/
theorem Master.AtCycle.masterCycle_of_busy {k n : Nat} {a : BitVec 5} {d : BitVec 1} {m : Master}
    (h : m.AtCycle k a d n) (hk : 0 < k) {p : Pins} {line : Level}
    (hb : (Reference.masterCycle k p line m).busy = true) :
    (Reference.masterCycle k p line m).AtCycle k a d (n + 1) := by
  by_cases hr : p.mRst = true
  · rw [Reference.masterCycle_reset hr] at hb
    exact nomatch hb
  by_cases hf : p.mDrvFault = true
  · rw [Reference.masterCycle_halFail hr h.busy hf] at hb
    exact nomatch hb
  refine h.masterCycle hk hr hf (fun hs => ?_) fun hn => ?_
  · cases line with
    | low => rfl
    | high =>
      rw [Reference.masterCycle_missedAck hr hf h.busy ((h.sample_iff hk).mpr hs) rfl] at hb
      exact nomatch hb
  · rw [h.masterCycle_ok hk hr hf hn] at hb
    exact nomatch hb

/-- Settles O58: a frame that went on for `100K` cycles more would be past its end. -/
theorem frameEndsInTime : Obligations.FrameEndsInTime := by
  unfold Obligations.FrameEndsInTime
  intro k ports levels m hk hsound hb
  by_contra! hbusy
  have hat (n : Nat) (hn : n ≤ 100 * k) :
      (Reference.transmit k ports levels m n).AtCycle k m.a m.d (m.elapsed k + n) := by
    induction n with
    | zero => exact ⟨hb, hsound.idx_bound, hsound.t_bound, rfl, rfl, rfl⟩
    | succ n ih =>
      exact (ih (by omega)).masterCycle_of_busy hk (Bool.not_eq_false _ ▸ hbusy (n + 1) hn)
  have := (hat (100 * k) le_rfl).lt
  omega

end Sys2Proof.Machine

/-! # A frame from the request to its delivery

A system of one slave with idle ports is its master and its slave on the line that they drive
(`State.pair`, `Reference.cycle_pair`). One symbol of the frame is a Low of the line and then a High: the
Low lasts as long as the symbol's own Low phase, or, where the slave acknowledges, as long as the slave drives
(`State.cycleTimes_pair_symbol`). With what a slave makes of each symbol (`Slave.listen_start`,
`Slave.listen_bit`, `Slave.listen_addressQuery`, `Slave.listen_dataQuery`), the frame is its nine symbols one
after another. -/

namespace Sys2Proof.Machine

/-! ## Runs over many cycles -/

theorem State.run_add {a : Nat} (b : Nat) :
    ∀ {s t : State}, s.run a = .next t → s.run (a + b) = t.run b := by
  induction a with
  | zero =>
    rintro s t h
    cases h
    rw [Nat.zero_add]
  | succ a ih =>
    intro s t h
    obtain ⟨u, hu⟩ := stepAlwaysAnswersNext s
    rw [State.run_succ hu] at h
    rw [Nat.add_right_comm, State.run_succ hu, ih h]

theorem Reference.cycleTimes_add (a b : Nat) : ∀ s : State,
    Reference.cycleTimes (a + b) s = Reference.cycleTimes b (Reference.cycleTimes a s) := by
  induction a with
  | zero => exact fun s => by rw [Nat.zero_add]; rfl
  | succ a ih => exact fun s => by rw [Nat.add_right_comm]; exact ih _

theorem Reference.cycleTimes_succ (n : Nat) (s : State) :
    Reference.cycleTimes (n + 1) s = Reference.cycle (Reference.cycleTimes n s) :=
  Reference.cycleTimes_add n 1 s

theorem Reference.cycle_length (s : State) : (Reference.cycle s).slaves.length = s.slaves.length := by
  simp [Reference.cycle]

theorem Reference.cycle_atCycleStart (s : State) : (Reference.cycle s).atCycleStart :=
  ⟨by rw [Reference.cycle_length]; rfl, rfl, rfl⟩

/-- The turns of `n` cycles are `n` cycles in which all units act at once. -/
theorem State.run_cycles (n : Nat) : ∀ {s : State}, s.atCycleStart →
    s.run (turnsPerCycle s.slaves.length * n) = .next (Reference.cycleTimes n s) := by
  induction n with
  | zero => exact fun _ => rfl
  | succ n ih =>
    intro s hs
    rw [Nat.mul_succ, Nat.add_comm, State.run_add _ (turnsOfACycleActAtOnce s hs),
      ← Reference.cycle_length s, ih (Reference.cycle_atCycleStart s)]
    rfl

/-! ## One master and one slave -/

/-- A system of one slave at the start of a cycle, with idle ports from then on. -/
def State.pair (params : Params) (m : Master) (v : Slave) : State where
  params := params
  pins := .idle
  stim := []
  slot := Slot.first 1
  wire := .high
  ackWire := none
  master := m
  slaves := [v]

section

variable {params : Params} {m : Master} {v : Slave}

theorem Reference.line_pair :
    Reference.line (State.pair params m v) =
      if m.driveLow params.k = true ∨ v.acking = true then .low else .high := by
  simp [Reference.line, State.pair, Pins.idle, State.k, Slave.driveLow]

/-- A cycle of the pair is one of its master and one of its slave. -/
theorem Reference.cycle_pair {l : Level} (hl : Reference.line (State.pair params m v) = l) :
    Reference.cycle (State.pair params m v) =
      State.pair params (Reference.masterCycle params.k .idle l m)
        (Reference.slaveCycle params.k .idle l v) := by
  subst hl
  rfl

end

/-! ## The slave and the falls of the line -/

/-- Without a fall a slave does not begin to drive the line. -/
theorem Reference.slaveCycle_acking_of_no_fall (k : Nat) {v : Slave} {line : Level}
    (hl : line = .high ∨ v.linePrev = .low) (ha : v.acking = false) :
    (Reference.slaveCycle k .idle line v).acking = false ∧
      (Reference.slaveCycle k .idle line v).linePrev = line := by
  have hturn : (timerTurn .idle line v).acking = false := by
    by_cases ht : v.tmr = 1
    · rw [timerTurn_of_tmr_eq_one ht, Reference.timerExpiry_acking]
    · rw [timerTurn_of_tmr_ne_one ht, tick_acking, ha]
  by_cases he : v.linePrev = line
  · rw [Reference.slaveCycle_of_no_edge k he]
    exact ⟨hturn, (timerTurn_linePrev Bool.false_ne_true line v).trans he⟩
  · obtain rfl : line = .high := hl.elim id fun hlow => by
      cases line with
      | low => exact absurd hlow he
      | high => rfl
    rw [Reference.slaveCycle_of_edge k he]
    exact ⟨Reference.levelEvent_high_acking k false hturn, by simp⟩

theorem Reference.listen_acking_of_no_fall (k : Nat) {v : Slave} {line : Level}
    (hl : line = .high ∨ v.linePrev = .low) (ha : v.acking = false) (n : Nat) :
    (Reference.listen k (List.replicate n line) v).acking = false := by
  suffices h : (line = .high ∨ (Reference.listen k (List.replicate n line) v).linePrev = .low) ∧
      (Reference.listen k (List.replicate n line) v).acking = false from h.2
  induction n with
  | zero => exact ⟨hl, ha⟩
  | succ n ih =>
    obtain ⟨hline, hack⟩ := ih
    obtain ⟨hack', hprev⟩ := Reference.slaveCycle_acking_of_no_fall k hline hack
    rw [Reference.listen_replicate_succ]
    exact ⟨by cases line <;> simp [hprev], hack'⟩

/-- A fall that does not make the slave drive the line, and the Low after it. -/
theorem Reference.listen_low_acking (k n : Nat) {v : Slave}
    (ha : (Reference.slaveCycle k .idle .low v).acking = false)
    (hp : (Reference.slaveCycle k .idle .low v).linePrev = .low) :
    (Reference.listen k (List.replicate (n + 1) .low) v).acking = false :=
  Reference.listen_acking_of_no_fall k (v := Reference.slaveCycle k .idle .low v) (.inr hp) ha n

/-! ## One symbol of the pair -/

/-- The master in a frame, at offset `t` of the symbol of index `i`. -/
def Master.inFrame (a : BitVec 5) (d : BitVec 1) (i t : Nat) : Master where
  busy := true
  idx := BitVec.ofNat 4 i
  t := t
  a := a
  d := d
  result := 0
  done := false

section

variable {a : BitVec 5} {d : BitVec 1} {i t : Nat}

theorem Master.inFrame_idx_toNat (hi : i ≤ 8) : (Master.inFrame a d i t).idx.toNat = i :=
  (BitVec.toNat_ofNat ..).trans (Nat.mod_eq_of_lt (by omega))

theorem Master.inFrame_idx_eq {c : BitVec 4} (hi : i ≤ 8) :
    (Master.inFrame a d i t).idx = c ↔ i = c.toNat := by
  rw [← BitVec.toNat_inj, Master.inFrame_idx_toNat hi]

variable {params : Params} {v : Slave} {x : Symbol} (hx : symbolAt (Master.inFrame a d i 0) = x)
include hx

theorem Reference.line_inFrame :
    Reference.line (State.pair params (Master.inFrame a d i t) v) =
      if t < lowLen x * params.k ∨ v.acking = true then .low else .high := by
  have hdrive : (Master.inFrame a d i t).driveLow params.k = true ↔ t < lowLen x * params.k := by
    subst hx
    exact emitsLow_iff ..
  simp only [Reference.line_pair, hdrive]

variable (hi : i ≤ 8)
include hi

/-- Cycles on a line that stays as it is, before the last cycle of a symbol: a query is not sampled High. -/
theorem State.cycleTimes_pair_of_line {l : Level} {n : Nat} (ht : t + n < totLen x * params.k)
    (hline : ∀ j < n, Reference.line (State.pair params (Master.inFrame a d i (t + j))
      (Reference.listen params.k (List.replicate j l) v)) = l)
    (hs : l = .high → i = 6 ∨ i = 8 → 5 * params.k < t) :
    Reference.cycleTimes n (State.pair params (Master.inFrame a d i t) v) =
      State.pair params (Master.inFrame a d i (t + n)) (Reference.listen params.k (List.replicate n l) v) := by
  induction n with
  | zero => rfl
  | succ n ih =>
    have hsample (h : samplePoint params.k (Master.inFrame a d i (t + n)) = true) : l = .low := by
      rw [samplePoint_iff_idx, Master.inFrame_idx_eq hi, Master.inFrame_idx_eq hi] at h
      obtain ⟨hidx, hat⟩ : (i = 6 ∨ i = 8) ∧ t + n = 5 * params.k := h
      cases l with
      | low => rfl
      | high =>
        have := hs rfl hidx
        omega
    rw [Reference.cycleTimes_succ, ih (by omega) fun j hj => hline j (by omega),
      Reference.cycle_pair (hline n (by omega)), Reference.listen_replicate_succ,
      Reference.masterCycle_hold Bool.false_ne_true Bool.false_ne_true rfl hsample
        ((Master.inFrame_idx_toNat hi).trans_le hi) (by subst hx; exact ht)]
    rfl

/-- The last cycle of a symbol goes to the next, or ends the frame with Ok. -/
theorem Reference.masterCycle_inFrame_last {k : Nat} (ht : totLen x * k = t + 1) (line : Level) :
    Reference.masterCycle k .idle line (Master.inFrame a d i t) =
      if i = 8 then { Master.inFrame a d i t with busy := false, done := true }
      else Master.inFrame a d (i + 1) 0 := by
  rw [Reference.masterCycle_endOfSymbol Bool.false_ne_true Bool.false_ne_true rfl (by subst hx; exact ht.symm)]
  refine ite_congr (propext (Master.inFrame_idx_eq hi)) (fun _ => rfl) fun _ => ?_
  simp only [Master.inFrame, BitVec.ofNat_add]
  rfl

/-- The Low of a symbol: the master drives it, and then the slave. -/
theorem State.cycleTimes_pair_low {L : Nat} (hL : L < totLen x * params.k)
    (hlow : ∀ j < L, lowLen x * params.k ≤ j →
      (Reference.listen params.k (List.replicate j .low) v).acking = true) :
    Reference.cycleTimes L (State.pair params (Master.inFrame a d i 0) v) =
      State.pair params (Master.inFrame a d i L) (Reference.listen params.k (List.replicate L .low) v) := by
  have h := State.cycleTimes_pair_of_line (params := params) (v := v) (t := 0) (n := L) (l := .low) hx hi
    (by omega) (fun j hj => by
      rw [Reference.line_inFrame hx, Nat.zero_add]
      exact if_pos (or_iff_not_imp_left.mpr fun hd => hlow j hj (Nat.le_of_not_lt hd)))
    nofun
  rwa [Nat.zero_add] at h

/-- A symbol of the pair: a Low of `L` cycles, in the last of which the master or the slave still drives, and
then a High. An Ack query is sampled in the Low. -/
theorem State.cycleTimes_pair_symbol {L : Nat} (hlo : lowLen x * params.k ≤ L) (hL : L < totLen x * params.k)
    (hlow : ∀ j < L, lowLen x * params.k ≤ j →
      (Reference.listen params.k (List.replicate j .low) v).acking = true)
    (hrelease : (Reference.listen params.k (List.replicate L .low) v).acking = false)
    (hs : i = 6 ∨ i = 8 → 5 * params.k < L) :
    Reference.cycleTimes (totLen x * params.k) (State.pair params (Master.inFrame a d i 0) v) =
      State.pair params
        (if i = 8 then { Master.inFrame a d i (totLen x * params.k - 1) with busy := false, done := true }
          else Master.inFrame a d (i + 1) 0)
        (Reference.listen params.k
          (List.replicate L .low ++ List.replicate (totLen x * params.k - L) .high) v) := by
  obtain ⟨n, hn⟩ : ∃ n, totLen x * params.k = L + (n + 1) :=
    ⟨totLen x * params.k - L - 1, by omega⟩
  set w := Reference.listen params.k (List.replicate L .low) v with hw
  have hhigh (j : Nat) : Reference.line (State.pair params (Master.inFrame a d i (L + j))
      (Reference.listen params.k (List.replicate j .high) w)) = .high := by
    rw [Reference.line_inFrame hx, Reference.listen_acking_of_no_fall _ (.inl rfl) hrelease]
    exact if_neg (by simp; omega)
  have hlast := Reference.masterCycle_inFrame_last (t := L + n) hx hi hn .high
  have hsplit : L + (n + 1) - L = n + 1 := by omega
  have hpred : L + (n + 1) - 1 = L + n := by omega
  rw [hn, hsplit, hpred, Reference.cycleTimes_add, State.cycleTimes_pair_low hx hi hL hlow,
    Reference.cycleTimes_succ, ← hw,
    State.cycleTimes_pair_of_line hx hi (by omega) (fun j _ => hhigh j) (fun _ => hs),
    Reference.cycle_pair (hhigh n), hlast, Reference.listen_append, ← hw,
    Reference.listen_replicate_succ]

end

/-! ## The slave between two symbols -/

/-- The slave of address `own` between two symbols of a frame, with `n` bits of its phase's field received: it
awaits nothing, drives nothing, and has seen the line High. -/
def Slave.between (own : BitVec 5) (phase : Phase) (n : BitVec 3) (addr : BitVec 5) (data : BitVec 1)
    (sampled : Level) : Slave :=
  { Slave.atReset own .high with
    phase := phase, currentBit := n, addressAccum := addr, dataAccum := data, lastSampled := sampled }

/-- A Low and a High of the line, by its falling edge, its rising edge and the rest of the High. -/
theorem Reference.listen_wave (k : Nat) {L H : Nat} (hL : 0 < L) (hH : 0 < H) (v : Slave) :
    Reference.listen k (List.replicate L .low ++ List.replicate H .high) v =
      Reference.listen k (List.replicate (H - 1) .high)
        (Reference.listen k (List.replicate (L - 1) .low ++ [.high])
          (Reference.slaveCycle k .idle .low v)) := by
  obtain ⟨n, rfl⟩ : ∃ n, L = n + 1 := ⟨L - 1, by omega⟩
  obtain ⟨j, rfl⟩ : ∃ j, H = j + 1 := ⟨H - 1, by omega⟩
  rw [Nat.add_sub_cancel, Nat.add_sub_cancel, ← Reference.listen_append, List.append_assoc]
  rfl

/-- A countdown that expires on a line that stays as it is, and the cycles after it. -/
theorem Reference.listen_through_expiry (k : Nat) {n : Nat} {line : Level} {v : Slave}
    (hq : v.ExpiryOnlyReleases) (hl : v.linePrev = line) (ht : 0 < v.tmr) (hn : v.tmr ≤ n) :
    Reference.listen k (List.replicate n line) v =
      release (Machine.timerExpiry line (v.inCycle 0 line)) := by
  have hsplit : List.replicate n line =
      List.replicate (v.tmr - 1 + 1) line ++ List.replicate (n - v.tmr) line := by
    rw [List.replicate_append_replicate]
    congr 1
    omega
  have hexp : (v.inCycle 0 line).ExpiryOnlyReleases := hq
  rw [hsplit, Reference.listen_append, Reference.listen_expiry k hl (by omega), hexp.timerExpiry,
    Reference.listen_of_no_expiry k (by rfl) (.inl rfl)]
  simp [Slave.inCycle, release, Machine.timerExpiry]

/-- A falling edge that makes the slave acknowledge: it drives the line as long as its countdown runs. -/
theorem Reference.listen_query {k : Nat} (hk : 0 < k) {v w : Slave}
    (hw : Reference.slaveCycle k .idle .low v = w) (ha : w.acking = true) (ht : w.tmr = 8 * k)
    (hl : w.linePrev = .low) :
    (∀ j, 1 ≤ j → j < 8 * k + 1 → (Reference.listen k (List.replicate j .low) v).acking = true) ∧
      Reference.listen k (List.replicate (8 * k + 1) .low) v =
        Reference.timerExpiry false .low (w.inCycle 0 .low) := by
  have hfall (i : Nat) : Reference.listen k (List.replicate (i + 1) .low) v =
      Reference.listen k (List.replicate i .low) w := congrArg (Reference.listen k _) hw
  refine ⟨fun j h1 hj => ?_, ?_⟩
  · obtain ⟨i, rfl⟩ : ∃ i, j = i + 1 := ⟨j - 1, by omega⟩
    rw [hfall, Reference.listen_of_no_expiry k hl (.inr (by omega))]
    exact ha
  · obtain ⟨i, hi⟩ : ∃ i, 8 * k = i + 1 := ⟨8 * k - 1, by omega⟩
    rw [hfall, hi, Reference.listen_expiry k hl (by omega)]

/-- The slave with a received bit in its accumulator: a 0 leaves it as it is. -/
def Slave.takeBit (b : Bool) (v : Slave) : Slave := if b then setReceivedBit v else v

section

variable {own : BitVec 5} {phase : Phase} {n : BitVec 3} {addr : BitVec 5} {data : BitVec 1} {l : Level}

/-- Between two symbols a High line changes nothing. -/
theorem Slave.listen_between (k j : Nat) :
    Reference.listen k (List.replicate j .high) (Slave.between own phase n addr data l) =
      Slave.between own phase n addr data l := by
  have hprev : (Slave.between own phase n addr data l).linePrev = .high := rfl
  rw [Reference.listen_of_no_expiry k hprev (.inl rfl)]
  simp [Slave.between, Slave.atReset]

theorem Slave.slaveCycle_between_idle (k : Nat) :
    Reference.slaveCycle k .idle .low (Slave.between own .idle n addr data l) =
      (Slave.between own .idle n addr data l).waiting k tStartDet := by
  rw [Reference.slaveCycle_fall k (Slave.expiryOnlyReleases_of_idle rfl) rfl rfl,
    Reference.levelEvent_fall_idle rfl k false rfl, Slave.waiting]

theorem Slave.slaveCycle_between_of_hasRoom (k : Nat)
    (hroom : (Slave.between own phase n addr data l).HasRoom) :
    Reference.slaveCycle k .idle .low (Slave.between own phase n addr data l) =
      (Slave.between own phase n addr data l).waiting k tCheckpoint := by
  have hfall : (Slave.between own phase n addr data l).atFall.HasRoom := hroom
  rw [Reference.slaveCycle_fall k (hroom.expiryOnlyReleases rfl) rfl rfl, hfall.levelEvent_fall k false rfl,
    Slave.waiting]

/-- The slave hears a START and receives an address. -/
theorem Slave.listen_start {k : Nat} (hk : 0 < k) :
    Reference.listen k (List.replicate (18 * k) .low ++ List.replicate (2 * k) .high)
        (Slave.between own .idle 0 0 0 l) =
      Slave.between own .receivingAddress 0 0 0 .low := by
  have hu : ((Slave.between own .idle 0 0 0 l).waiting k tStartDet).phase = .idle := rfl
  have htmr : ((Slave.between own .idle 0 0 0 l).waiting k tStartDet).tmr = 15 * k := rfl
  rw [Reference.listen_wave k (by omega) (by omega), Slave.slaveCycle_between_idle,
    Reference.rise_late k (Slave.expiryOnlyReleases_of_idle hu) rfl (by omega) (by omega),
    Reference.levelEvent_rise_idle_sampledLow ((Slave.atRise_phase ..).trans hu) k false rfl rfl rfl]
  exact Slave.listen_between ..

variable {addr' : BitVec 5} {data' : BitVec 1} {b : Bool}

/-- The slave hears a bit and takes it: the countdown of 5 units has expired at the rise of a 1, and expires
after the rise of a 0. -/
theorem Slave.listen_bit {k : Nat} (hk : 0 < k) (hroom : (Slave.between own phase n addr data l).HasRoom)
    (htake : ∀ l, (Slave.between own phase n addr data l).takeBit b =
      Slave.between own phase n addr' data' l) :
    Reference.listen k (List.replicate (lowLen (bitSym b) * k) .low ++
        List.replicate (highLen (bitSym b) * k) .high) (Slave.between own phase n addr data l) =
      Slave.between own phase (n + 1) addr' data' (if b then .low else .high) := by
  set v := Slave.between own phase n addr data l
  have hu : (v.waiting k tCheckpoint).HasRoom := hroom
  have hq : (v.waiting k tCheckpoint).ExpiryOnlyReleases := hu.expiryOnlyReleases rfl
  have htmr : (v.waiting k tCheckpoint).tmr = 5 * k := rfl
  have hfall : Reference.slaveCycle k .idle .low v = v.waiting k tCheckpoint :=
    Slave.slaveCycle_between_of_hasRoom k hroom
  cases b with
  | true =>
    have hset : setReceivedBit (levelEvent ((v.waiting k tCheckpoint).atRise .low)) =
        Slave.between own phase n addr' data' .low := htake .low
    rw [Reference.listen_wave k (Nat.mul_pos (by decide) hk) (Nat.mul_pos (by decide) hk), hfall,
      Reference.rise_late k hq rfl (by omega) (by rw [htmr]; change _ ≤ 8 * k - 1; omega),
      (hu.atRise _).levelEvent_rise_sampledLow k false rfl rfl rfl, hset]
    exact Slave.listen_between ..
  | false =>
    have hkeep : Slave.between own phase n addr data .high = Slave.between own phase n addr' data' .high :=
      htake .high
    rw [Reference.listen_wave k (Nat.mul_pos (by decide) hk) (Nat.mul_pos (by decide) hk), hfall,
      Reference.rise_early k rfl (by rw [htmr]; change 2 * k - 1 + 1 < _; omega),
      (hu.inCycle _ _).levelEvent_rise_waiting k false rfl rfl]
    refine (Reference.listen_through_expiry k (by exact hq) rfl ?_ ?_).trans (congrArg countBit hkeep)
    · change 0 < 5 * k - (2 * k - 1 + 1)
      omega
    · change 5 * k - (2 * k - 1 + 1) ≤ 8 * k - 1
      omega

/-- The slave hears its address queried: it acknowledges, ignores the rise after its drive, and receives the
data. -/
theorem Slave.listen_addressQuery {k : Nat} (hk : 0 < k) :
    let v := Slave.between own .receivingAddress 5 own data l
    (∀ j, 1 ≤ j → j < 8 * k + 1 → (Reference.listen k (List.replicate j .low) v).acking = true) ∧
      (Reference.listen k (List.replicate (8 * k + 1) .low) v).acking = false ∧
      Reference.listen k (List.replicate (8 * k + 1) .low ++ List.replicate (2 * k - 1) .high) v =
        Slave.between own .receivingData 0 own data .low := by
  intro v
  obtain ⟨hack, hend⟩ := Reference.listen_query hk (v := v)
    (Reference.slaveCycle_addressQuery k rfl rfl rfl rfl rfl) rfl rfl rfl
  refine ⟨hack, hend ▸ Reference.timerExpiry_acking .., ?_⟩
  obtain ⟨j, hj⟩ : ∃ j, 2 * k - 1 = 1 + j := ⟨2 * k - 2, by omega⟩
  rw [Reference.listen_append, hend, Reference.timerExpiry_addressAck rfl rfl, hj,
    ← List.replicate_append_replicate, Reference.listen_append]
  exact Slave.listen_between ..

/-- RD_DATA_ACK (42_slave_receiver.md R176) -/
theorem Slave.slaveCycle_dataQuery (k : Nat) :
    Reference.slaveCycle k .idle .low (Slave.between own .receivingData 1 addr data l) =
      { (Slave.between own .receivingData 1 addr data l).waiting k tAckHold with
        acking := true, phase := .done } :=
  rfl

/-- The slave hears its data queried: it acknowledges, and delivers the data when its drive ends. -/
theorem Slave.listen_dataQuery {k : Nat} (hk : 0 < k) :
    let v := Slave.between own .receivingData 1 addr data l
    let w := Reference.listen k (List.replicate (8 * k + 1) .low) v
    (∀ j, 1 ≤ j → j < 8 * k + 1 → (Reference.listen k (List.replicate j .low) v).acking = true) ∧
      w.acking = false ∧ w.rxValid = true ∧ w.rxData = data := by
  intro v w
  obtain ⟨hack, hend⟩ := Reference.listen_query hk (v := v) (Slave.slaveCycle_dataQuery k) rfl rfl rfl
  simp only [w, hend]
  exact ⟨hack, rfl, rfl, rfl⟩

end

/-! ## The symbols of a frame -/

/-- The address as far as its first `i` bits say. -/
def receivedBits (a : BitVec 5) (i : Nat) : BitVec 5 := (a.setWidth i).setWidth 5

/-- A finite check over the 32 addresses and the 5 bits. -/
theorem receivedBits_succ : ∀ (a : BitVec 5), ∀ i < 5,
    (if a.getLsbD i then receivedBits a i ||| (1#5 <<< i) else receivedBits a i) =
      receivedBits a (i + 1) := by
  decide

theorem receivedBits_zero : ∀ a : BitVec 5, receivedBits a 0 = 0 := by
  decide

/-- All bits of the address are the address. -/
theorem receivedBits_five (a : BitVec 5) : receivedBits a 5 = a := by
  simp [receivedBits]

theorem toNat_ofNat_of_lt_five {i : Nat} (hi : i < 5) : (BitVec.ofNat 3 i).toNat = i :=
  (BitVec.toNat_ofNat ..).trans (Nat.mod_eq_of_lt (by omega))

/-- Bit `i` of the address joins the bits before it. -/
theorem Slave.takeBit_address {own a : BitVec 5} {data : BitVec 1} {l : Level} {i : Nat} (hi : i < 5) :
    (Slave.between own .receivingAddress (BitVec.ofNat 3 i) (receivedBits a i) data l).takeBit (a.getLsbD i) =
      Slave.between own .receivingAddress (BitVec.ofNat 3 i) (receivedBits a (i + 1)) data l := by
  have hn : (BitVec.ofNat 3 i).toNat = i := toNat_ofNat_of_lt_five hi
  rw [← receivedBits_succ a i hi, Slave.takeBit]
  split_ifs
  · rw [setReceivedBit_of_receivingAddress rfl (hn.trans_lt hi)]
    exact congrArg (fun j => Slave.between own _ _ (receivedBits a i ||| (1#5 <<< j)) data l) hn
  · rfl

/-- The one bit of the data is the data. -/
theorem Slave.takeBit_data {own addr : BitVec 5} {l : Level} (d : BitVec 1) :
    (Slave.between own .receivingData 0 addr 0 l).takeBit (d.getLsbD 0) =
      Slave.between own .receivingData 0 addr d l := by
  obtain rfl | rfl := BitVec.eq_zero_or_eq_one d
  · rfl
  · exact setReceivedBit_of_receivingData (v := Slave.between own .receivingData 0 addr 0 l) rfl
      Nat.zero_lt_one

section

variable {params : Params} {a : BitVec 5} {d : BitVec 1} {own : BitVec 5} {l : Level}

/-- A bit of the frame, from the master to the slave that takes it. -/
theorem State.cycleTimes_pair_bit {i : Nat} {b : Bool} (hx : symbolAt (Master.inFrame a d i 0) = bitSym b)
    (hi : i ≤ 8) (hne : ¬ (i = 6 ∨ i = 8)) {phase : Phase} {n : BitVec 3} {addr addr' : BitVec 5}
    {data data' : BitVec 1} (hroom : (Slave.between own phase n addr data l).HasRoom)
    (htake : ∀ l, (Slave.between own phase n addr data l).takeBit b =
      Slave.between own phase n addr' data' l) :
    Reference.cycleTimes (10 * params.k)
        (State.pair params (Master.inFrame a d i 0) (Slave.between own phase n addr data l)) =
      State.pair params (Master.inFrame a d (i + 1) 0)
        (Slave.between own phase (n + 1) addr' data' (if b then .low else .high)) := by
  have hk := params.k_pos
  have htot : totLen (bitSym b) = 10 := by cases b <;> rfl
  have hlow : 0 < lowLen (bitSym b) * params.k := Nat.mul_pos (by cases b <;> decide) hk
  have hhigh : 0 < highLen (bitSym b) * params.k := Nat.mul_pos (by cases b <;> decide) hk
  have hlen : totLen (bitSym b) * params.k =
      lowLen (bitSym b) * params.k + highLen (bitSym b) * params.k := Nat.add_mul ..
  have hfall := Slave.slaveCycle_between_of_hasRoom params.k hroom
  have hrelease : (Reference.listen params.k (List.replicate (lowLen (bitSym b) * params.k) .low)
      (Slave.between own phase n addr data l)).acking = false := by
    rw [← Nat.sub_add_cancel hlow]
    exact Reference.listen_low_acking _ _ (hfall ▸ rfl) (hfall ▸ rfl)
  rw [← htot, State.cycleTimes_pair_symbol hx hi le_rfl (by omega) (fun j hj hle => absurd hj (by omega))
    hrelease (fun hc => absurd hc hne), if_neg fun hc => hne (.inr hc), hlen, Nat.add_sub_cancel_left,
    Slave.listen_bit hk hroom htake]

/-- The START of the frame. -/
theorem State.cycleTimes_pair_start :
    Reference.cycleTimes (20 * params.k)
        (State.pair params (Master.inFrame a d 0 0) (Slave.between own .idle 0 0 0 l)) =
      State.pair params (Master.inFrame a d 1 0) (Slave.between own .receivingAddress 0 0 0 .low) := by
  have hk := params.k_pos
  have hx : symbolAt (Master.inFrame a d 0 0) = .start := symbolAt_start rfl
  have hlow : lowLen .start * params.k = 18 * params.k := rfl
  have htot : totLen .start * params.k = 20 * params.k := rfl
  have hfall := Slave.slaveCycle_between_idle (own := own) (n := 0) (addr := 0) (data := 0) (l := l)
    params.k
  have hrelease : (Reference.listen params.k (List.replicate (18 * params.k) .low)
      (Slave.between own .idle 0 0 0 l)).acking = false := by
    rw [← Nat.sub_add_cancel (Nat.mul_pos (by decide : 0 < 18) hk)]
    exact Reference.listen_low_acking _ _ (hfall ▸ rfl) (hfall ▸ rfl)
  have hhigh : totLen .start * params.k - 18 * params.k = 2 * params.k := by omega
  rw [← htot, State.cycleTimes_pair_symbol hx (by decide) hlow.le (by omega)
    (fun j hj hle => absurd hj (by omega)) hrelease (fun hc => absurd hc (by decide)), if_neg (by decide),
    hhigh, Slave.listen_start hk]

/-- The START and `i` address bits. -/
theorem State.cycleTimes_pair_address {i : Nat} (hi : i ≤ 5) :
    ∃ l', Reference.cycleTimes ((20 + 10 * i) * params.k)
        (State.pair params (Master.inFrame a d 0 0) (Slave.between own .idle 0 0 0 l)) =
      State.pair params (Master.inFrame a d (i + 1) 0)
        (Slave.between own .receivingAddress (BitVec.ofNat 3 i) (receivedBits a i) 0 l') := by
  induction i with
  | zero =>
    rw [receivedBits_zero]
    exact ⟨_, State.cycleTimes_pair_start⟩
  | succ i ih =>
    obtain ⟨l', hrun⟩ := ih (by omega)
    have hx : symbolAt (Master.inFrame a d (i + 1) 0) = bitSym (a.getLsbD i) :=
      symbolAt_address (i := i + 1) (by omega) hi (Master.inFrame_idx_toNat (by omega))
    have hroom : (Slave.between own .receivingAddress (BitVec.ofNat 3 i) (receivedBits a i) 0 l').HasRoom :=
      .inl ⟨rfl, (toNat_ofNat_of_lt_five hi).trans_lt hi⟩
    have hlen : (20 + 10 * (i + 1)) * params.k = (20 + 10 * i) * params.k + 10 * params.k := by ring
    rw [hlen, Reference.cycleTimes_add, hrun, BitVec.ofNat_add]
    exact ⟨_, State.cycleTimes_pair_bit hx (by omega) (by omega) hroom fun l => Slave.takeBit_address hi⟩

/-- The query of the address, which the slave of that address acknowledges. -/
theorem State.cycleTimes_pair_addressQuery :
    Reference.cycleTimes (10 * params.k)
        (State.pair params (Master.inFrame a d 6 0) (Slave.between own .receivingAddress 5 own 0 l)) =
      State.pair params (Master.inFrame a d 7 0) (Slave.between own .receivingData 0 own 0 .low) := by
  have hk := params.k_pos
  have hx : symbolAt (Master.inFrame a d 6 0) = .ackq := symbolAt_query (.inl rfl)
  have hlow : lowLen .ackq * params.k = 2 * params.k := rfl
  have htot : totLen .ackq * params.k = 10 * params.k := rfl
  obtain ⟨hack, hrelease, hheard⟩ := Slave.listen_addressQuery (own := own) (data := 0) (l := l) hk
  have hhigh : totLen .ackq * params.k - (8 * params.k + 1) = 2 * params.k - 1 := by omega
  rw [← htot, State.cycleTimes_pair_symbol (L := 8 * params.k + 1) hx (by decide) (by omega) (by omega)
    (fun j hj hle => hack j (by omega) hj) hrelease (fun _ => by omega), if_neg (by decide), hhigh, hheard]

/-- The frame up to the query of its data. -/
theorem State.cycleTimes_pair_data :
    ∃ l', Reference.cycleTimes (90 * params.k)
        (State.pair params (Master.inFrame a d 0 0) (Slave.between a .idle 0 0 0 l)) =
      State.pair params (Master.inFrame a d 8 0) (Slave.between a .receivingData 1 a d l') := by
  obtain ⟨l', haddr⟩ := State.cycleTimes_pair_address (params := params) (a := a) (d := d) (own := a)
    (l := l) (i := 5) le_rfl
  rw [receivedBits_five] at haddr
  have hroom : (Slave.between a .receivingData 0 a 0 .low).HasRoom := .inr ⟨rfl, Nat.zero_lt_one⟩
  have hbit := State.cycleTimes_pair_bit (params := params) (symbolAt_data (m := Master.inFrame a d 7 0) rfl)
    (by decide) (by decide) hroom fun l => Slave.takeBit_data d
  have hlen : 90 * params.k = (20 + 10 * 5) * params.k + 10 * params.k + 10 * params.k := by ring
  rw [hlen, Reference.cycleTimes_add, Reference.cycleTimes_add, haddr]
  exact ⟨_, (congrArg _ State.cycleTimes_pair_addressQuery).trans hbit⟩

end

/-- The cycle of the request: the master accepts it, and the slave stays at rest. -/
theorem State.cycle_fresh (params : Params) (a : BitVec 5) (d : BitVec 1) :
    Reference.cycle (State.fresh params [a]
        { Pins.idle with mStart := true, mAddr := a.setWidth 32, mData := d.setWidth 32 } []) =
      State.pair params (Master.inFrame a d 0 0) (Slave.between a .idle 0 0 0 .high) := by
  have hvalid : (a.setWidth 32).toNat < 32 ∧ (d.setWidth 32).toNat < 2 := by
    rw [BitVec.toNat_setWidth_of_le (by decide), BitVec.toNat_setWidth_of_le (by decide)]
    exact ⟨a.isLt, d.isLt⟩
  have haccept : Reference.masterCycle params.k
      { Pins.idle with mStart := true, mAddr := a.setWidth 32, mData := d.setWidth 32 } .high Master.atReset =
        Master.inFrame a d 0 0 := by
    rw [Reference.masterCycle_accept Bool.false_ne_true Bool.false_ne_true rfl hvalid]
    simp [Master.inFrame]
  rw [State.pair, ← haccept]
  rfl

/-- Settles O59: the request's cycle, the symbols up to the query of the data, and this query, whose Low ends
with the delivery and whose last cycle ends the frame. -/
theorem everyFrameIsDelivered : Obligations.EveryFrameIsDelivered := by
  unfold Obligations.EveryFrameIsDelivered
  intro params a d s
  have hk := params.k_pos
  have hx : symbolAt (Master.inFrame a d 8 0) = .ackq := symbolAt_query (.inr rfl)
  have hlow : lowLen .ackq * params.k = 2 * params.k := rfl
  have htot : totLen .ackq * params.k = 10 * params.k := rfl
  have hstart : s.atCycleStart := ⟨rfl, rfl, rfl⟩
  obtain ⟨l, hdata⟩ := State.cycleTimes_pair_data (params := params) (a := a) (d := d) (l := .high)
  have hquery (n : Nat) : Reference.cycleTimes (90 * params.k + n + 1) s = Reference.cycleTimes n
      (State.pair params (Master.inFrame a d 8 0) (Slave.between a .receivingData 1 a d l)) := by
    rw [Reference.cycleTimes, State.cycle_fresh, Reference.cycleTimes_add, hdata]
  obtain ⟨hack, hrelease, hvalid, hrx⟩ := Slave.listen_dataQuery (own := a) (addr := a) (data := d)
    (l := l) hk
  refine ⟨⟨_, State.run_cycles _ hstart, ?_⟩, ⟨_, State.run_cycles _ hstart, ?_⟩⟩
  · rw [show 98 * params.k + 2 = 90 * params.k + (8 * params.k + 1) + 1 by ring, hquery,
      State.cycleTimes_pair_low hx (by decide) (by omega) fun j hj hle => hack j (by omega) hj]
    exact congrArg₂ (fun valid x => [(valid, x)]) hvalid hrx
  · rw [show 100 * params.k + 1 = 90 * params.k + totLen .ackq * params.k + 1 by omega, hquery,
      State.cycleTimes_pair_symbol (L := 8 * params.k + 1) hx (by decide) (by omega) (by omega)
        (fun j hj hle => hack j (by omega) hj) hrelease (fun _ => by omega), if_pos rfl]
    exact ⟨rfl, rfl⟩

end Sys2Proof.Machine

/-! # The slave's vector, its rows and its turns

The bits of a TSV are read off where `tsv` packs them (`tsv_getLsbD`). Each row of a slave is an equation for
the whole next state (`onUnit_next`); the rows that call the driver all fail into the same reset in place
(`withDriver_eq`). A turn of a slave replaces that slave by what the turn makes of it
(`step_timer_eq`, `step_level_eq`), and so a slave's registers change only as `timerTurn` and `levelTurn` say. -/

namespace Sys2Proof.Machine

/-! ## The bits of a TSV (42_slave_receiver.md R163) -/

/-- The places of the ten bits: a finite check over their 1024 values. -/
theorem tsv_getLsbD (ev : Bool) (line : Level) (v : Slave) :
    let x := tsv ev line v
    x.getLsbD 9 = ev ∧ x.getLsbD 8 = levelBit line ∧ x.getLsbD 7 = v.awaitingTimer ∧
      x.getLsbD 6 = levelBit v.lastSampled ∧ x.extractLsb' 4 2 = phaseBits v.phase ∧
      x.getLsbD 3 = fieldComplete v ∧ x.getLsbD 2 = addressMatch v ∧ x.getLsbD 1 = v.ignoreRise ∧
      x.getLsbD 0 = v.acking := by
  unfold tsv
  generalize phaseBits v.phase = phase, levelBit v.lastSampled = last, v.awaitingTimer = waiting,
    v.acking = acking, v.ignoreRise = ignore, fieldComplete v = full, addressMatch v = matched,
    levelBit line = level
  revert ev phase last waiting acking ignore full matched level
  decide +kernel

theorem fieldComplete_eq (v : Slave) :
    fieldComplete v = decide ((v.phase = .receivingAddress ∧ v.currentBit = 5) ∨
      (v.phase = .receivingData ∧ v.currentBit = 1)) := by
  cases hp : v.phase with
  | idle => simp [fieldComplete_idle hp]
  | receivingAddress => simp [fieldComplete_receivingAddress hp]
  | receivingData => simp [fieldComplete_receivingData hp]
  | done => simp [fieldComplete_done hp]

/-- Only the two rows that end an address read `am`. -/
theorem tsvRows_addressMatch_masked : ∀ r ∈ tsvRows, r.mask.getLsbD 2 = true →
    r.instr = .raAddrAck ∨ r.instr = .raAddrMismatch := by
  decide

/-- Up to a bound, not to be there is to be below it. -/
theorem decide_eq_false_iff_lt {c b : BitVec 3} (h : c.toNat ≤ b.toNat) :
    decide (c = b) = false ↔ c.toNat < b.toNat := by
  rw [decide_eq_false_iff_not, ← BitVec.toNat_inj]
  omega

/-- Settles O6: the places of the bits, and R34 (b), by which an incomplete field has room. -/
theorem tsvBitsComeFromTheState : Obligations.TsvBitsComeFromTheState := by
  unfold Obligations.TsvBitsComeFromTheState
  refine ⟨fun ev line v => ?_, tsvRows_addressMatch_masked, fun v hv => ⟨fun hp => ?_, fun hp => ?_⟩⟩
  · obtain ⟨hev, hlvl, hwaiting, hlast, hphase, hfull, hmatch, hignore, hacking⟩ := tsv_getLsbD ev line v
    refine ⟨hev, hlvl.trans (levelBit_eq _), hwaiting, hlast.trans (levelBit_eq _), ?_,
      hfull.trans (fieldComplete_eq v), hmatch.trans (beq_eq_decide ..), hignore, hacking⟩
    rw [hphase]
    cases v.phase <;> rfl
  · rw [fieldComplete_receivingAddress hp]
    exact decide_eq_false_iff_lt (hv.address_bound hp)
  · rw [fieldComplete_receivingData hp]
    exact decide_eq_false_iff_lt (hv.data_bound hp)

/-! ## A slave's turn, as an equation for the next state -/

/-- An operation on one of the slaves puts its result in that slave's place. -/
theorem modify_slave_eq_set {l : List Slave} {j : Nat} {v : Slave} (hv : l[j]? = some v) (f : Slave → Slave) :
    l.modify j f = l.set j (f v) := by
  rw [List.modify_eq_set_getElem?, hv]
  rfl

theorem step_timer_eq {s : State} {j : Nat} {v : Slave} (hs : s.slot = .timer j)
    (hv : s.slaves[j]? = some v) :
    step s = .next { s with
      slot := .level j
      slaves := s.slaves.set j (timerTurn (s.pins.slave j) s.busIn v) } := by
  rw [step_timer hs, ← modify_slave_eq_set hv]
  simp only [State.onUnit, State.advance, hs, Slot.unit, Slot.next]

theorem step_level_eq {s : State} {j : Nat} {v : Slave} (hs : s.slot = .level j)
    (hv : s.slaves[j]? = some v) :
    step s = .next { s with
      slot := (Slot.level j).next s.slaves.length
      slaves := s.slaves.set j (levelTurn s.k (s.pins.slave j) s.busIn v) } := by
  rw [step_level hs, ← modify_slave_eq_set hv]
  simp only [State.onUnit, State.advance, hs, Slot.unit, List.length_modify]

theorem timerTurn_of_running {p : SlavePins} (hr : p.rst = false) (line : Level) (v : Slave) :
    timerTurn p line v = if v.tmr = 1 then Reference.timerExpiry p.drvFault line (tick v) else tick v := by
  simp [timerTurn, hr]

theorem levelTurn_of_edge {p : SlavePins} (hr : p.rst = false) (k : Nat) {line : Level} {v : Slave}
    (hl : line ≠ v.linePrev) :
    levelTurn k p line v = Reference.levelEvent k p.drvFault line { v with linePrev := line } :=
  if_pos ⟨hr, hl⟩

@[simp] theorem levelTurn_linePrev (k : Nat) (p : SlavePins) (line : Level) (v : Slave) :
    (levelTurn k p line v).linePrev = line := by
  unfold levelTurn
  split <;> simp

/-- Settles O12: an edge out of reset is the case of `levelTurn` with an event. -/
theorem levelTurnFollowsTheTransitionTable : Obligations.LevelTurnFollowsTheTransitionTable := by
  unfold Obligations.LevelTurnFollowsTheTransitionTable
  intro s j v hs hv hr hl
  rw [step_level_eq hs hv, levelTurn_of_edge hr s.k hl]

/-- Settles O14: the countdown out of reset, with the rules of the expiry at its end. -/
theorem timerTurnFollowsTheExpiryRows : Obligations.TimerTurnFollowsTheExpiryRows := by
  unfold Obligations.TimerTurnFollowsTheExpiryRows
  intro s j v hs hv hr
  rw [step_timer_eq hs hv, timerTurn_of_running hr]
  rfl

/-- Settles O13: the vector is fetched under the condition of `levelTurn`'s event, and without the event
`levelTurn` writes `line_prev` only. -/
theorem edgeExactlyWhenTheLineChanges : Obligations.EdgeExactlyWhenTheLineChanges := by
  unfold Obligations.EdgeExactlyWhenTheLineChanges
  intro s j v hs hv
  have hin : j < s.slaves.length := (List.getElem?_eq_some_iff.mp hv).1
  refine ⟨?_, _, levelTurn s.k (s.pins.slave j) s.busIn v, step_level_eq hs hv,
    List.getElem?_set_self hin, levelTurn_linePrev .., fun hno => if_neg ?_⟩
  · simp only [State.fetch, hs, hv, State.unitPins_of_slot (.inr hs)]
  · rintro ⟨hr, hl⟩
    obtain hr' | hl' := hno
    · exact Bool.false_ne_true (hr.symm.trans hr')
    · exact hl hl'

/-! ## What a turn writes besides its row -/

theorem State.prepare_masterRow {s : State} (hs : s.slot = .masterRow) :
    s.prepare = { s with master := if s.pins.mRst then Master.atReset else s.master } := by
  have hp : s.prepare = if s.pins.mRst then s.onMaster fun _ => Master.atReset else s := by
    simp only [State.prepare, hs]
  rw [hp]
  split <;> rfl

theorem State.prepare_timer {s : State} {j : Nat} (hs : s.slot = .timer j) :
    s.prepare = { s with
      slaves := s.slaves.modify j fun v =>
        if (s.pins.slave j).rst then Slave.atReset (s.pins.slave j).cfgOwnAddress s.busIn else tick v } := by
  obtain ⟨hu, hq⟩ := State.unitPins_of_slot (.inl hs)
  simp only [State.prepare, State.onUnit, hs, hq, Slot.unit]

theorem State.prepare_level {s : State} {j : Nat} (hs : s.slot = .level j) :
    s.prepare = { s with slaves := s.slaves.modify j fun v => { v with linePrev := s.busIn } } := by
  simp only [State.prepare, State.onUnit, hs, Slot.unit]

/-- Settles O8: every instruction answers a next state, and the turn passes on. -/
theorem stepRunsTheFetchedInstruction : Obligations.StepRunsTheFetchedInstruction := by
  unfold Obligations.StepRunsTheFetchedInstruction
  intro s w i hf hd _
  obtain ⟨u, hu⟩ := exec_next i s.prepare
  exact ⟨u, hu, step_of_fetch hf hd hu⟩

/-- Settles O9, turn by turn. -/
theorem turnsWriteTheirOwnRegisters : Obligations.TurnsWriteTheirOwnRegisters := by
  unfold Obligations.TurnsWriteTheirOwnRegisters
  refine fun s => ⟨step_of_fetch_none, fun j hs => ?_, fun hs => ?_, State.prepare_masterRow,
    fun j => State.prepare_timer, fun j => State.prepare_level⟩
  · simp only [State.prepare, hs]
  · simp only [State.prepare, hs]

/-! ## The rows, each as an equation for the next state -/

/-- A row of a slave, by what it makes of every slave. -/
theorem onUnit_next {f g : Slave → Slave} (s : State) (h : ∀ v, f v = g v) :
    (.next (s.onUnit f) : Host.Outcome State Fault Refusal) =
      .next { s with slaves := s.slaves.modify s.slot.unit g } := by
  rw [funext h, State.onUnit]

/-- A driver failure leaves the reset in place and the `hal_fail` pulse, whatever the row
(42_slave_receiver.md R187). -/
theorem withDriver_eq (drvFault : Bool) (row : Slave → Slave) (v : Slave) :
    withDriver drvFault row v = if drvFault then { v.resetInPlace with halFail := true } else row v := rfl

/-- The reset in place keeps nothing that a level event or an expiry writes before it. -/
theorem resetInPlace_levelEvent (v : Slave) : (levelEvent v).resetInPlace = v.resetInPlace := rfl

theorem resetInPlace_timerExpiry (line : Level) (v : Slave) :
    (timerExpiry line v).resetInPlace = v.resetInPlace := rfl

/-- Settles O28: the row is what every level event writes (R165). -/
theorem ignoredRiseOnlyClearsItsFlag : Obligations.IgnoredRiseOnlyClearsItsFlag := by
  unfold Obligations.IgnoredRiseOnlyClearsItsFlag
  exact fun s => onUnit_next s fun _ => rfl

/-- Settles O29: the three rows arm the countdown after what every level event writes. -/
theorem fallingEdgesArmTheCountdown : Obligations.FallingEdgesArmTheCountdown := by
  unfold Obligations.FallingEdgesArmTheCountdown
  exact fun s => ⟨onUnit_next s fun _ => rfl, onUnit_next s fun _ => rfl, onUnit_next s fun _ => rfl⟩

/-- Settles O30: each violation row is the reset in place with its own cause, and the cause has no effect. -/
theorem violationsResetInPlace : Obligations.ViolationsResetInPlace := by
  unfold Obligations.ViolationsResetInPlace
  refine ⟨fun _ _ => rfl, fun s i hi => ?_⟩
  have hrow : ∃ c, exec i s = levelRow (resetToIdle c) s := by
    fin_cases hi <;> exact ⟨_, rfl⟩
  obtain ⟨c, hc⟩ := hrow
  rw [hc]
  exact onUnit_next s fun _ => rfl

/-- Settles O31: the row's two writes after what every level event writes. -/
theorem startMovesToReceivingAddress : Obligations.StartMovesToReceivingAddress := by
  unfold Obligations.StartMovesToReceivingAddress
  exact fun s => onUnit_next s fun _ => rfl

/-- Settles O32: a working driver takes the slave to the data field with its Ack, a failing one resets it in
place. -/
theorem addressAckDrivesAndMovesOn : Obligations.AddressAckDrivesAndMovesOn := by
  unfold Obligations.AddressAckDrivesAndMovesOn
  refine fun s => onUnit_next s fun v => ?_
  rw [withDriver_eq, resetInPlace_levelEvent]
  rfl

/-- Settles O33: a working driver takes the slave to Done with its Ack, a failing one resets it in place. -/
theorem dataAckDrivesAndMovesOn : Obligations.DataAckDrivesAndMovesOn := by
  unfold Obligations.DataAckDrivesAndMovesOn
  refine fun s => onUnit_next s fun v => ?_
  rw [withDriver_eq, resetInPlace_levelEvent]
  rfl

/-- Only the accumulators can differ after a received 1, and the row reads nothing that the level event
writes before it. -/
theorem countBit_setReceivedBit_levelEvent (v : Slave) :
    countBit (setReceivedBit (levelEvent v)) =
      { v with
        ignoreRise := false, addressAccum := (setReceivedBit v).addressAccum,
        dataAccum := (setReceivedBit v).dataAccum, currentBit := v.currentBit + 1 } := by
  cases hp : v.phase <;> simp [setReceivedBit, countBit, levelEvent, hp]

theorem setReceivedBit_addressAccum (v : Slave) :
    (setReceivedBit v).addressAccum =
      if v.phase = .receivingAddress then setAddressBit v.addressAccum v.currentBit else v.addressAccum := by
  cases hp : v.phase <;> simp [setReceivedBit, hp]

theorem setReceivedBit_dataAccum (v : Slave) :
    (setReceivedBit v).dataAccum =
      if v.phase = .receivingAddress then v.dataAccum else setDataBit v.dataAccum v.currentBit := by
  cases hp : v.phase <;> simp [setReceivedBit, hp]

/-- Settles O34: the accumulators that setting the received bit gives, the active one by the phase. -/
theorem bitOneSetsTheCountedBit : Obligations.BitOneSetsTheCountedBit := by
  unfold Obligations.BitOneSetsTheCountedBit
  refine fun s => ⟨fun v => (setReceivedBit v).addressAccum, fun v => (setReceivedBit v).dataAccum,
    fun v hp => ?_, fun v hp => ?_, fun v hp hc n => ?_, fun v hp hc => ?_, fun i hi => ?_⟩
  · exact (setReceivedBit_addressAccum v).trans (if_neg hp)
  · exact (setReceivedBit_dataAccum v).trans (if_pos hp)
  · simp only [setReceivedBit_addressAccum, if_pos hp, setAddressBit_getLsbD _ _ hc]
  · have hzero : v.currentBit = 0 := BitVec.eq_of_toNat_eq (by simpa using hc)
    simp only [setReceivedBit_dataAccum, if_neg hp, hzero, setDataBit_zero]
  · have hrow : exec i s = receiveOne s := by
      fin_cases hi <;> rfl
    rw [hrow]
    exact onUnit_next s countBit_setReceivedBit_levelEvent

/-- Settles O35: both rows count the bit after what every level event writes. -/
theorem bitZeroOnlyCounts : Obligations.BitZeroOnlyCounts := by
  unfold Obligations.BitZeroOnlyCounts
  intro s i hi
  have hrow : exec i s = receiveZero s := by
    fin_cases hi <;> rfl
  rw [hrow]
  exact onUnit_next s fun _ => rfl

/-- Settles O36: the three rows are what every expiry writes (R182). -/
theorem plainExpiryOnlySamples : Obligations.PlainExpiryOnlySamples := by
  unfold Obligations.PlainExpiryOnlySamples
  intro s i hi
  have hrow : exec i s = sampleOnly s := by
    fin_cases hi <;> rfl
  rw [hrow]
  exact onUnit_next s fun _ => rfl

/-- Settles O37: the row calls the driver, and a failure is its reset in place. -/
theorem addressAckEndReleases : Obligations.AddressAckEndReleases := by
  unfold Obligations.AddressAckEndReleases
  refine fun s => onUnit_next s fun v => ?_
  rw [withDriver_eq, resetInPlace_timerExpiry]
  rfl

/-- Settles O38: the driver is called, and can fail, only where the slave drives; else the frame is
delivered. -/
theorem dataAckEndDelivers : Obligations.DataAckEndDelivers := by
  unfold Obligations.DataAckEndDelivers
  refine fun s => onUnit_next s fun v => ?_
  simp only [withDriver_eq, resetInPlace_timerExpiry, timerExpiry_acking, Bool.and_eq_true]
  rfl

/-- Settles O39: both rows call the driver, and a failure is the reset in place. -/
theorem strayAckReleases : Obligations.StrayAckReleases := by
  unfold Obligations.StrayAckReleases
  intro s i hi
  have hrow : exec i s = releaseStray s := by
    fin_cases hi <;> rfl
  rw [hrow]
  refine onUnit_next s fun v => ?_
  rw [withDriver_eq, resetInPlace_timerExpiry]
  rfl

/-! ## The slave's own address (42_slave_receiver.md R190) -/

@[simp] theorem Reference.levelEvent_ownAddress (k : Nat) (drvFault : Bool) (line : Level) (v : Slave) :
    (Reference.levelEvent k drvFault line v).ownAddress = v.ownAddress := by
  simp only [Reference.levelEvent]
  repeat' split
  all_goals rfl

@[simp] theorem Reference.timerExpiry_ownAddress (drvFault : Bool) (line : Level) (v : Slave) :
    (Reference.timerExpiry drvFault line v).ownAddress = v.ownAddress := by
  unfold Reference.timerExpiry
  repeat' split
  all_goals rfl

theorem levelTurn_ownAddress (k : Nat) (p : SlavePins) (line : Level) (v : Slave) :
    (levelTurn k p line v).ownAddress = v.ownAddress := by
  unfold levelTurn
  split <;> simp

theorem timerTurn_ownAddress (p : SlavePins) (line : Level) (v : Slave) :
    (timerTurn p line v).ownAddress = if p.rst = true then p.cfgOwnAddress else v.ownAddress := by
  unfold timerTurn
  split_ifs <;> simp

/-- Settles O47: of the turns that change a slave, its level turn keeps the address and its timer turn
writes it in reset only. -/
theorem ownAddressChangesOnlyInReset : Obligations.OwnAddressChangesOnlyInReset := by
  unfold Obligations.OwnAddressChangesOnlyInReset
  intro s t j v hv h
  by_cases ht : s.slot = .timer j
  · refine ⟨_, (step_timer_getElem? ht h).trans (congrArg _ hv), ?_⟩
    simp only [timerTurn_ownAddress, ht, true_and]
  · simp only [ht, false_and, if_false]
    by_cases hl : s.slot = .level j
    · exact ⟨_, (step_level_getElem? hl h).trans (congrArg _ hv), levelTurn_ownAddress ..⟩
    · obtain ⟨-, -, -, -, hslaves⟩ := turnsTouchOnlyTheirOwnUnit s t h
      exact ⟨v, (hslaves j ht hl).trans hv, rfl⟩

/-! ## The start of a drive (42_slave_receiver.md R174, R176, R188) -/

/-- The slave has received all of a field that it is to acknowledge: its own address, or the data. -/
def Slave.FieldForIt (v : Slave) : Prop :=
  (v.phase = .receivingAddress ∧ v.currentBit = 5 ∧ v.addressAccum = v.ownAddress) ∨
    (v.phase = .receivingData ∧ v.currentBit = 1)

/-- Of the rows of an edge only RA_ADDR_ACK and RD_DATA_ACK with a working driver drive the line. -/
theorem Reference.levelEvent_starts_drive {k : Nat} {drvFault : Bool} {line : Level} {v : Slave}
    (ha : v.acking = false) (hw : (Reference.levelEvent k drvFault line v).acking = true) :
    line = .low ∧ drvFault = false ∧ v.awaitingTimer = false ∧ v.FieldForIt := by
  cases line with
  | high =>
    rw [Reference.levelEvent_high_acking k drvFault ha] at hw
    exact absurd hw Bool.false_ne_true
  | low =>
    cases hp : v.phase with
    | idle =>
      simp only [Reference.levelEvent, hp] at hw
      split_ifs at hw
      · exact nomatch hw
      · exact absurd (ha.symm.trans hw) Bool.false_ne_true
    | receivingAddress =>
      simp only [Reference.levelEvent, hp] at hw
      split_ifs at hw with hwait hc hm hf
      · exact nomatch hw
      · exact absurd (ha.symm.trans hw) Bool.false_ne_true
      · exact nomatch hw
      · exact nomatch hw
      · exact ⟨rfl, Bool.eq_false_iff.mpr hf, Bool.eq_false_iff.mpr hwait,
          .inl ⟨hp, not_not.mp hc, not_not.mp hm⟩⟩
    | receivingData =>
      simp only [Reference.levelEvent, hp] at hw
      split_ifs at hw with hwait hc hf
      · exact nomatch hw
      · exact absurd (ha.symm.trans hw) Bool.false_ne_true
      · exact nomatch hw
      · exact ⟨rfl, Bool.eq_false_iff.mpr hf, Bool.eq_false_iff.mpr hwait, .inr ⟨hp, not_not.mp hc⟩⟩
    | done =>
      simp only [Reference.levelEvent, hp] at hw
      exact nomatch hw

/-- No timer turn begins a drive. -/
theorem timerTurn_acking_eq_false (p : SlavePins) (line : Level) {v : Slave} (ha : v.acking = false) :
    (timerTurn p line v).acking = false := by
  unfold timerTurn
  split_ifs
  · rfl
  · exact Reference.timerExpiry_acking ..
  · exact ha

/-- A level turn that begins a drive has an edge out of reset. -/
theorem levelTurn_starts_drive {k : Nat} {p : SlavePins} {line : Level} {v : Slave}
    (ha : v.acking = false) (hw : (levelTurn k p line v).acking = true) :
    p.rst = false ∧ p.drvFault = false ∧ v.linePrev = .high ∧ line = .low ∧ v.awaitingTimer = false ∧
      v.FieldForIt := by
  by_cases hedge : p.rst = false ∧ line ≠ v.linePrev
  · rw [levelTurn, if_pos hedge] at hw
    obtain ⟨rfl, hf, hwait, hfield⟩ :=
      Reference.levelEvent_starts_drive (v := { v with linePrev := line }) ha hw
    have hprev : v.linePrev = .high := by
      cases hl : v.linePrev with
      | low => exact absurd hl.symm hedge.2
      | high => rfl
    exact ⟨hedge.1, hf, hprev, rfl, hwait, hfield⟩
  · rw [levelTurn, if_neg hedge] at hw
    exact absurd (ha.symm.trans hw) Bool.false_ne_true

/-- Settles O52: only the slave's own turns change it, and of them only its level turn begins a drive. -/
theorem slavesDriveOnlyToAcknowledge : Obligations.SlavesDriveOnlyToAcknowledge := by
  unfold Obligations.SlavesDriveOnlyToAcknowledge
  intro s t j v w hv hw h ha hdrives
  have hmoved : t.slaves[j]? ≠ s.slaves[j]? := by
    intro heq
    obtain rfl : w = v := Option.some.inj (hw.symm.trans (heq.trans hv))
    exact Bool.false_ne_true (ha.symm.trans hdrives)
  obtain hs | hs := slot_of_slave_changed h hmoved
  · obtain rfl : timerTurn (s.pins.slave j) s.busIn v = w := by
      simpa [hv, hw] using (step_timer_getElem? hs h).symm
    exact absurd ((timerTurn_acking_eq_false _ _ ha).symm.trans hdrives) Bool.false_ne_true
  · obtain rfl : levelTurn s.k (s.pins.slave j) s.busIn v = w := by
      simpa [hv, hw] using (step_level_getElem? hs h).symm
    exact ⟨hs, levelTurn_starts_drive ha hdrives⟩

/-! ## The end of a countdown (42_slave_receiver.md R161) -/

/-- Settles O56: cycles without an edge only count, and the last one runs the rules of the expiry, which for
a slave that does not drive and is not in Done only sample the line. -/
theorem countdownExpiresOnTime : Obligations.CountdownExpiresOnTime := by
  unfold Obligations.CountdownExpiresOnTime
  intro k n line v hl hn
  refine ⟨Reference.listen_of_no_expiry k hl (.inr hn), fun hlast ha hp => ?_⟩
  have hquiet : (v.inCycle 0 line).ExpiryOnlyReleases := ⟨hp, fun _ => ha⟩
  rw [Reference.listen_expiry k hl hlast, hquiet.timerExpiry]
  exact ⟨rfl, rfl, rfl, rfl⟩

end Sys2Proof.Machine

/-! # The units in reset

A unit in reset runs no row: the master's cycle clears it (`Reference.masterCycle_reset`), a slave's timer turn
puts every register at its reset value (`timerTurn_of_reset`), and its level turn, which no edge disturbs then,
writes `line_prev` only (`levelTurn_of_reset`). -/

namespace Sys2Proof.Machine

/-! ## A slave's turns in reset (70_reset_and_hazards.md R230, R232; 42_slave_receiver.md R190) -/

theorem timerTurn_of_reset {p : SlavePins} (hr : p.rst = true) (line : Level) (v : Slave) :
    timerTurn p line v = Slave.atReset p.cfgOwnAddress line :=
  if_pos hr

theorem levelTurn_of_reset {p : SlavePins} (hr : p.rst = true) (k : Nat) (line : Level) (v : Slave) :
    levelTurn k p line v = { v with linePrev := line } :=
  if_neg fun hedge => Bool.false_ne_true (hedge.1.symm.trans hr)

/-- Settles O40: each turn's equation for the next state, with the reset case of what the turn does. -/
theorem resetWritesEveryRegister : Obligations.ResetWritesEveryRegister := by
  unfold Obligations.ResetWritesEveryRegister
  refine ⟨fun s hs hr => ?_, fun s j v hv hr => ⟨fun hs => ?_, fun hs => ?_⟩⟩
  · rw [masterTurnFollowsTheStepRows s hs, Reference.masterCycle_reset hr]
    rfl
  · rw [step_timer_eq hs hv, timerTurn_of_reset hr]
    rfl
  · rw [step_level_eq hs hv, levelTurn_of_reset hr]

/-! ## The state after reset -/

/-- A fresh system is at the start of a cycle, with only the external driver on its line. -/
theorem State.fresh_atCycleStart (params : Params) (owns : List (BitVec 5)) (pins : Pins) (stim : List Pins) :
    (State.fresh params owns pins stim).atCycleStart := by
  refine ⟨?_, rfl, rfl⟩
  simp only [State.fresh, List.length_map]

/-- Settles O41: the reset state is built from the reset values of both units, and is a fresh system. -/
theorem resetStateHoldsTheResetValues : Obligations.ResetStateHoldsTheResetValues := by
  unfold Obligations.ResetStateHoldsTheResetValues
  refine ⟨rfl, rfl, rfl, ?_⟩
  rw [State.reset_eq_fresh]
  exact State.fresh_atCycleStart ..

end Sys2Proof.Machine
